-- ==== Sys2Proof/Word.lean ====
section
/-! DEFINITION. The word types of the Protocol Engine (spec/00_scope.md R4, R8): every value is an unsigned bit
vector of a stated width, bit 0 the least significant. -/

namespace Sys2Proof

/-- A 16-bit word of the wire: command, no-op or response frame (R4). -/
abbrev Word := BitVec 16

/-- One byte of a two-byte buffer (R8). -/
abbrev Byte := BitVec 8

/-- A 14-bit register address of the sensor (R4, R50). -/
abbrev Address := BitVec 14

/-- A register selector, the code `r` of 10_state.md R22. -/
abbrev Sel := BitVec 3

/-- An operation code of 30_encoding.md R89. -/
abbrev OpCode := BitVec 3

/-- A host request word, format HREQ (30_encoding.md R89). -/
abbrev Hreq := BitVec 6

end Sys2Proof
end

