-- ==== Sys2Proof/Config.lean ====
section
/-! DEFINITION. What the spec leaves to the implementation (spec/00_scope.md R5): the types of the collaborators'
error values, and the values State.reset takes where the spec states none. -/

namespace Sys2Proof

/-- `E_T`, the value a failed exchange reports. The PE never looks inside one (R201; 92_eei_decisions.md D3), so a
token tells two of them apart and nothing else does. DESIGN CHOICE (log entry 4), safe. -/
structure TransportError where
  token : Nat
  deriving DecidableEq, Repr

/-- `E_CS`, the value a failed chip-select toggle reports (R202, D3). DESIGN CHOICE (log entry 4), safe. -/
structure ChipSelectError where
  token : Nat
  deriving DecidableEq, Repr

namespace Config

/-- The strap `CS_EXPLICIT` of State.reset; the spec leaves it open ("as built", R32). DESIGN CHOICE (log entry 1),
unsafe for a claim that leans on it: no statement does, since the strap is a field of State. -/
def csExplicit : Bool := true

/-- The latch `op` after construction: "unspecified" (R32). DESIGN CHOICE (log entry 2), unsafe. -/
def opReset : OpCode := 0#3

/-- The latch `rsel` after construction: "unspecified" (R32). DESIGN CHOICE (log entry 2), unsafe. -/
def rselReset : Sel := 0#3

/-- The latches `rxh` and `rxl` after construction: "unspecified" (R32). DESIGN CHOICE (log entry 2), unsafe. -/
def rxReset : Byte := 0#8

end Config

end Sys2Proof
end

