-- ==== Sys2Proof/Syntax.lean ====
section
/-! DEFINITION. The instructions: one constructor per row of spec/opcode_table.json, six host operations
(30_encoding.md R89) and eight wire words (R88). -/

namespace Sys2Proof

/-- An instruction. A host operation keeps the three bits of its `rsel` field, whether it uses them (R89: `ENCODE`,
`EXECUTE`, `READ_U16`) or ignores them (R90: the other three). A wire word has no operand. -/
inductive Instr where
  /-- `ENCODE r` (R113). -/
  | encode (rsel : Sel)
  /-- `EXECUTE r` (R140). -/
  | execute (rsel : Sel)
  /-- `READ_U16 r` (R172). -/
  | readU16 (rsel : Sel)
  /-- `DIAG_GAIN` (R173). -/
  | diagGain (ignored : Sel)
  /-- `MAGNITUDE` (R174). -/
  | magnitude (ignored : Sel)
  /-- `ANGLE` (R175). -/
  | angle (ignored : Sel)
  /-- `RD_CLEAR_ERROR_FLAG`, 0x4001 (R114). -/
  | rdClearErrorFlag
  /-- `RD_PROGRAMMING_CONTROL`, 0xC003 (R115). -/
  | rdProgrammingControl
  /-- `RD_OTP_ZERO_POS_HIGH`, 0x4016 (R116). -/
  | rdOtpZeroPosHigh
  /-- `RD_OTP_ZERO_POS_LOW`, 0xC017 (R117). -/
  | rdOtpZeroPosLow
  /-- `RD_DIAG_AGC`, 0x7FFD (R118). -/
  | rdDiagAgc
  /-- `RD_MAGNITUDE`, 0x7FFE (R119). -/
  | rdMagnitude
  /-- `RD_ANGLE`, 0xFFFF (R120). -/
  | rdAngle
  /-- `NOP`, 0x0000 (R121). -/
  | nop
  deriving DecidableEq, Repr

/-- The "public" column of R89: the document's public contract. -/
def Instr.isPublic : Instr → Bool
  | .diagGain _ | .magnitude _ | .angle _ => true
  | .encode _ | .execute _ | .readU16 _ => false
  | .rdClearErrorFlag | .rdProgrammingControl | .rdOtpZeroPosHigh | .rdOtpZeroPosLow => false
  | .rdDiagAgc | .rdMagnitude | .rdAngle | .nop => false

end Sys2Proof
end

