-- ==== Sys2Proof/WellFormed.lean ====
section
/-! DEFINITION. Which instructions have an encoding of their own: 30_encoding.md R90 and R92. -/

namespace Sys2Proof

/-- R92: a request with `op` 0, 1 or 2 and `rsel` 7 is illegal; the other three host operations ignore the field
(R90), and a wire word has no operand. -/
def Instr.wf : Instr → Bool
  | .encode r => r != 7#3
  | .execute r => r != 7#3
  | .readU16 r => r != 7#3
  | .diagGain _ => true
  | .magnitude _ => true
  | .angle _ => true
  | .rdClearErrorFlag => true
  | .rdProgrammingControl => true
  | .rdOtpZeroPosHigh => true
  | .rdOtpZeroPosLow => true
  | .rdDiagAgc => true
  | .rdMagnitude => true
  | .rdAngle => true
  | .nop => true

end Sys2Proof
end

