-- ==== Sys2Proof/Decode.lean ====
section
/-! DEFINITION. The decoder and the encoder of both levels of 30_encoding.md: HREQ (R89, R90, R92), one request in
the low six bits of a byte, and the outgoing words CMD16 and NOP16 (R88), two bytes, high byte first (R86). -/

namespace Sys2Proof

/-- Why the decoder refuses a word. -/
inductive DecodeError where
  /-- HREQ with `op` 6 or 7 (R92). -/
  | reservedOperation
  /-- HREQ with `op` 0, 1 or 2 and `rsel` 7 (R92). -/
  | reservedSelector
  /-- A byte with bit 7 or bit 6 set holds no six-bit request (R89, R95). -/
  | notSixBits
  /-- A 16-bit word that is none of the eight of R88 (R93). -/
  | notOnTheWire
  /-- Neither one byte nor two (R95). -/
  | wrongLength
  deriving DecidableEq, Repr

/-- `HREQ[5:3]` (R89). -/
def hreqOp (w : Hreq) : OpCode := w.extractLsb' 3 3

/-- `HREQ[2:0]` (R89). -/
def hreqSel (w : Hreq) : Sel := w.extractLsb' 0 3

/-- The request word of an operation code and a selector field (R89). -/
def packHreq (op : OpCode) (r : Sel) : Hreq := op ++ r

/-- `hi8(w)` (00_scope.md R8). -/
def hi8 (w : Word) : Byte := w.extractLsb' 8 8

/-- `lo8(w)` (00_scope.md R8). -/
def lo8 (w : Word) : Byte := w.extractLsb' 0 8

/-- `i0 ‖ i1`: the word of two bytes, the first the high one (20_memory.md R54). -/
def wordOf (i0 i1 : Byte) : Word := (i0.setWidth 16 <<< 8) ||| i1.setWidth 16

/-- A selector that names a register, or the refusal of selector 7 (R92). -/
def withSelector (mk : Sel → Instr) (r : Sel) : Except DecodeError Instr :=
  if r = 7#3 then .error .reservedSelector else .ok (mk r)

/-- The operation a host request asks for, by the operation codes of R89. -/
def decodeHreq (w : Hreq) : Except DecodeError Instr :=
  match hreqOp w with
  | 0#3 => withSelector .encode (hreqSel w)
  | 1#3 => withSelector .execute (hreqSel w)
  | 2#3 => withSelector .readU16 (hreqSel w)
  | 3#3 => .ok (.diagGain (hreqSel w))
  | 4#3 => .ok (.magnitude (hreqSel w))
  | 5#3 => .ok (.angle (hreqSel w))
  | _ => .error .reservedOperation

/-- The wire word a 16-bit word is: all 16 bits are matched (R88). -/
def decodeWire (w : Word) : Except DecodeError Instr :=
  match w with
  | 0x4001#16 => .ok .rdClearErrorFlag
  | 0xC003#16 => .ok .rdProgrammingControl
  | 0x4016#16 => .ok .rdOtpZeroPosHigh
  | 0xC017#16 => .ok .rdOtpZeroPosLow
  | 0x7FFD#16 => .ok .rdDiagAgc
  | 0x7FFE#16 => .ok .rdMagnitude
  | 0xFFFF#16 => .ok .rdAngle
  | 0x0000#16 => .ok .nop
  | _ => .error .notOnTheWire

/-- The decoder, total on any bytes: one byte is a host request, two bytes are a wire word, first byte high. -/
def decodeBytes : List Byte → Except DecodeError Instr
  | [b] => if b.extractLsb' 6 2 = 0#2 then decodeHreq (b.extractLsb' 0 6) else .error .notSixBits
  | [b0, b1] => decodeWire (wordOf b0 b1)
  | _ => .error .wrongLength

/-- What the decoder reads from a word whose bits are numbered as spec/opcode_table.json numbers them: a row of 6 bits
is one byte, a row of 16 bits is one word sent high byte first. -/
def decodeTableWord (nbits w : Nat) : Option Instr :=
  if nbits ≤ 8 then
    if w < 256 then (decodeBytes [BitVec.ofNat 8 w]).toOption else none
  else
    if w < 65536 then (decodeBytes [hi8 (BitVec.ofNat 16 w), lo8 (BitVec.ofNat 16 w)]).toOption else none

/-- The byte of a host request: `00 ‖ op ‖ rsel`. -/
def hreqByte (op : OpCode) (r : Sel) : Byte := (packHreq op r).setWidth 8

/-- The two bytes of a word, in the order they are sent (R86). -/
def wireBytes (w : Word) : List Byte := [hi8 w, lo8 w]

/-- The bytes of an instruction, from the tables R88 and R89. -/
def encode : Instr → List Byte
  | .encode r => [hreqByte 0#3 r]
  | .execute r => [hreqByte 1#3 r]
  | .readU16 r => [hreqByte 2#3 r]
  | .diagGain r => [hreqByte 3#3 r]
  | .magnitude r => [hreqByte 4#3 r]
  | .angle r => [hreqByte 5#3 r]
  | .rdClearErrorFlag => wireBytes 0x4001#16
  | .rdProgrammingControl => wireBytes 0xC003#16
  | .rdOtpZeroPosHigh => wireBytes 0x4016#16
  | .rdOtpZeroPosLow => wireBytes 0xC017#16
  | .rdDiagAgc => wireBytes 0x7FFD#16
  | .rdMagnitude => wireBytes 0x7FFE#16
  | .rdAngle => wireBytes 0xFFFF#16
  | .nop => wireBytes 0x0000#16

end Sys2Proof
end

