-- ==== Sys2Proof/Machine/State.lean ====
section
/-! DEFINITION. The state of the Protocol Engine (spec/10_state.md), its inputs and outputs, the reasons a step can
stop, and the state after construction (R32). Plain data throughout. -/

namespace Sys2Proof.Machine

/-- The sequencer state `seq` (R24): which collaborator call is outstanding. `reserved` is code 7, which no rule enters
(R24; 93_implementation_defined.md H6; log entry 6). -/
inductive SeqState where
  | idle | aSel | aXfer | aDes | bSel | bXfer | bDes | reserved
  deriving DecidableEq, Repr

/-- The 3-bit code of `seq` (R24). -/
def SeqState.code : SeqState → BitVec 3
  | .idle => 0#3
  | .aSel => 1#3
  | .aXfer => 2#3
  | .aDes => 3#3
  | .bSel => 4#3
  | .bXfer => 5#3
  | .bDes => 6#3
  | .reserved => 7#3

/-- A collaborator call (20_memory.md R53). -/
inductive Call where
  | csLow
  | csHigh
  | transfer (o0 o1 : Byte)
  deriving DecidableEq, Repr

/-- The answer to `CsLow` or `CsHigh` (R53). -/
inductive SelectAnswer where
  | ok
  | err (e : ChipSelectError)
  deriving DecidableEq, Repr

/-- The answer to `Transfer` (R53): two bytes, `i0` received first, or the transport's error. -/
inductive TransferAnswer where
  | ok (i0 i1 : Byte)
  | err (e : TransportError)
  deriving DecidableEq, Repr

/-- One entry of the event history (R66): a call and its answer, `none` while the answer has not come. -/
inductive Entry where
  | csLow (answer : Option SelectAnswer)
  | csHigh (answer : Option SelectAnswer)
  | transfer (o0 o1 : Byte) (answer : Option TransferAnswer)
  deriving DecidableEq, Repr

/-- The causes of 60_exceptions.md: `Transport` (R201) and `ChipSelect` (R202), each with the value reported. -/
inductive Cause where
  | transport (e : TransportError)
  | chipSelect (e : ChipSelectError)
  deriving DecidableEq, Repr

/-- The host response, format HRSP as a sum (30_encoding.md R91). -/
inductive Response where
  | ok (data : Word)
  | err (c : Cause)
  | illegal
  deriving DecidableEq, Repr

/-- Why the machine stops. No run from construction meets one. -/
inductive Fault where
  /-- Raised by the step when `seq` holds code 7 (R24; H6: "unreachable; `fault` if reached"). Safe: a stop. -/
  | seqReserved
  /-- Raised when a command word is wanted and the latch `rsel` holds 7, for which R22 gives no address. Safe: a stop
  in a state no run reaches (log entry 7). -/
  | noCommandWord
  /-- Raised at completion when the latch `op` is none of 1 to 5, for which R149 gives no data. Safe: a stop in a state
  no run reaches (log entry 7). -/
  | noCompletion
  deriving DecidableEq, Repr

/-- Why an instruction has no meaning here. -/
inductive Refusal where
  /-- Raised by a refused arm of `exec`: an instruction without its meaning. Safe. -/
  | notModelled (mnemonic : String)
  /-- Raised by the eight wire words outside the one point of a read where a rule emits them (R121 "and at no other
  time"; R213; R147: no row, no step). Safe: a stop, and the step never asks for one (log entry 8). -/
  | wireWordOutOfTurn
  deriving DecidableEq, Repr

end Sys2Proof.Machine

namespace Sys2Proof.Machine

/-- The state: the sequencer and the latches (R23, R24), the strap (R26), the inputs the host and the environment have
supplied and the PE has not yet consumed (R31; log entry 3), and what the PE has put out (R66, R91; log entry 11). -/
structure State where
  /-- The strap `CS_EXPLICIT` (R5, R26): no operation reads it as data or writes it. -/
  csExplicit : Bool
  /-- The sequencer state (R24). -/
  seq : SeqState
  /-- The operation latch (R23). -/
  op : OpCode
  /-- The selector latch (R23). -/
  rsel : Sel
  /-- Byte 0 of Transaction B's reply (R23). -/
  rxh : Byte
  /-- Byte 1 of Transaction B's reply (R23). -/
  rxl : Byte
  /-- Requests waiting at the host port, the next one first. -/
  requests : List Hreq
  /-- Answers the chip-select collaborator gives, the next one first. -/
  selectAnswers : List SelectAnswer
  /-- Answers the transport gives, the next one first. -/
  transferAnswers : List TransferAnswer
  /-- Every call made, the latest first (R66). -/
  history : List Entry
  /-- Every response given, the latest first (R91). -/
  responses : List Response
  deriving DecidableEq, Repr

/-- The state after construction of a PE built with the strap `cs` (R32, R230): no call made, no response pending. -/
def State.construct (cs : Bool) : State where
  csExplicit := cs
  seq := .idle
  op := Config.opReset
  rsel := Config.rselReset
  rxh := Config.rxReset
  rxl := Config.rxReset
  requests := []
  selectAnswers := []
  transferAnswers := []
  history := []
  responses := []

/-- The machine right after reset: construction (R230) with the strap of Config. -/
def State.reset : State := State.construct Config.csExplicit

end Sys2Proof.Machine
end

