-- ==== Sys2Proof/Machine/Flags.lean ====
section
/-! DEFINITION. Every flag computation the spec gives (10_state.md R25): the parity fold of the encoder (40_encoder.md
R110, R111), the two status bits of a response frame (30_encoding.md R85), and the status and tag codes of the host
response (R91). None of them is stored. -/

namespace Sys2Proof.Machine

/-- The four results of `FOLD16` (R110). -/
structure Fold where
  f8 : BitVec 8
  f4 : BitVec 4
  f2 : BitVec 2
  f1 : BitVec 1
  deriving DecidableEq, Repr

/-- `FOLD16(w)` (R110): the parity of a word by halving. -/
def fold16 (w : Word) : Fold :=
  let f8 := w.extractLsb' 8 8 ^^^ w.extractLsb' 0 8
  let f4 := f8.extractLsb' 4 4 ^^^ f8.extractLsb' 0 4
  let f2 := f4.extractLsb' 2 2 ^^^ f4.extractLsb' 0 2
  let f1 := f2.extractLsb' 1 1 ^^^ f2.extractLsb' 0 1
  { f8, f4, f2, f1 }

/-- `SETPAR(w)` (R111): the fold bit ORed into bit 15; the bit is only ever set. -/
def setPar (w : Word) : Word := w ||| ((fold16 w).f1.setWidth 16 <<< 15)

/-- `STATUS`, bits 15:14 of a response frame, that is bits 7:6 of byte 0 (R85). No rule of the PE reads it (R176). -/
def frameStatus (i0 : Byte) : BitVec 2 := i0.extractLsb' 6 2

/-- The `status` field of HRSP (R91): 0 `Ok`, 1 `Err`, 2 `Illegal`. -/
def Response.status : Response → BitVec 2
  | .ok _ => 0#2
  | .err _ => 1#2
  | .illegal => 2#2

/-- The tag code of a cause: 0 `Transport` (R201), 1 `ChipSelect` (R202). -/
def Cause.tag : Cause → BitVec 1
  | .transport _ => 0#1
  | .chipSelect _ => 1#1

/-- The `etag` field of HRSP (R91): there is one only beside `Err`. -/
def Response.etag : Response → Option (BitVec 1)
  | .err c => some c.tag
  | .ok _ | .illegal => none

/-- The `data` field of HRSP (R91): "when the shape is not `Ok` there is no data at all". -/
def Response.data : Response → Option Word
  | .ok d => some d
  | .err _ | .illegal => none

end Sys2Proof.Machine
end

