-- ==== Sys2Proof/Machine/Operands.lean ====
section
/-! DEFINITION. Every operand form the spec gives: a register selector through the `ADDR` table (10_state.md R22), the
assembly of a command word (30_encoding.md R87; 40_encoder.md R112), the decodes of a reply (42_decoder.md R170, R171)
and the data of a completed read (41_transaction.md R149). -/

namespace Sys2Proof.Machine

/-- The table `ADDR` (R22); selector 7 names no register. -/
def addrOf (r : Sel) : Option Address :=
  match r with
  | 0#3 => some 0x0001#14
  | 1#3 => some 0x0003#14
  | 2#3 => some 0x0016#14
  | 3#3 => some 0x0017#14
  | 4#3 => some 0x3FFD#14
  | 5#3 => some 0x3FFE#14
  | 6#3 => some 0x3FFF#14
  | _ => none

/-- `ENC(a)` (R112): the read flag, the address, then the parity bit. -/
def encodeAddress (a : Address) : Word := setPar (0x4000#16 ||| a.setWidth 16)

/-- `ENC(ADDR(r))` (R87): the command word of a register selector, if the selector names a register. -/
def commandWord (r : Sel) : Option Word := (addrOf r).map encodeAddress

/-- The no-op word (R84, R121): a constant, not built by the encoder. -/
def nopWord : Word := 0x0000#16

/-- The exchange that sends a word, high byte first (20_memory.md R54; R86). -/
def exchangeOf (w : Word) : Call := .transfer (hi8 w) (lo8 w)

/-- `DEC14(b0, b1)` (R170): the low 14 bits of the frame. -/
def dec14 (b0 b1 : Byte) : BitVec 14 := (wordOf b0 b1 &&& 0x3FFF#16).setWidth 14

/-- The `diag` part of `DECDG(b0, b1)` (R171): the low nibble of the first byte. -/
def decDiag (b0 : Byte) : BitVec 4 := (b0 &&& 0x0F#8).setWidth 4

/-- The `gain` part of `DECDG(b0, b1)` (R171): the second byte, whole. -/
def decGain (b1 : Byte) : BitVec 8 := b1

/-- `RES(op, b0, b1)` (R149), the data of the `Ok` response; R149 gives none for an `op` outside 1 to 5. -/
def completionData (op : OpCode) (b0 b1 : Byte) : Option Word :=
  match op with
  | 1#3 => some (wordOf b0 b1)
  | 2#3 => some ((dec14 b0 b1).setWidth 16)
  | 3#3 => some ((0#4 ++ decDiag b0) ++ decGain b1)
  | 4#3 => some ((dec14 b0 b1).setWidth 16)
  | 5#3 => some ((dec14 b0 b1).setWidth 16)
  | _ => none

end Sys2Proof.Machine
end

