-- ==== Sys2Proof/Machine/Ops.lean ====
section
/-! DEFINITION. The named operations on State that the meanings and the sequencer's rows are written over: issuing a
call, recording an answer, latching, responding, aborting (60_exceptions.md R208). There is no memory (20_memory.md R50)
and no return from an abort (R209). -/

namespace Sys2Proof.Machine

/-- The outcome of a step of this machine. -/
abbrev StepResult := Host.Outcome State Fault Refusal

/-- The history entry of a call just made, its answer not yet there (R66). -/
def Call.entry : Call → Entry
  | .csLow => .csLow none
  | .csHigh => .csHigh none
  | .transfer o0 o1 => .transfer o0 o1 none

/-- Record the answer to the outstanding select call (R66). -/
def answerSelect (a : SelectAnswer) : List Entry → List Entry
  | .csLow none :: h => .csLow (some a) :: h
  | .csHigh none :: h => .csHigh (some a) :: h
  | h => h

/-- Record the answer to the outstanding exchange (R66). -/
def answerTransfer (a : TransferAnswer) : List Entry → List Entry
  | .transfer o0 o1 none :: h => .transfer o0 o1 (some a) :: h
  | h => h

/-- Output event `Call(c)`: make the call and wait for its answer in `q` (41_transaction.md R147). -/
def State.issue (s : State) (c : Call) (q : SeqState) : State :=
  { s with seq := q, history := c.entry :: s.history }

/-- Output event `Rsp(x)`: the response ends the operation and the PE is idle (R147, R149). -/
def State.respond (s : State) (x : Response) : State :=
  { s with seq := .idle, responses := x :: s.responses }

/-- Latch the operation and the selector at acceptance (R148). -/
def State.latch (s : State) (op : OpCode) (r : Sel) : State :=
  { s with op := op, rsel := r }

/-- Latch Transaction B's reply (R142). -/
def State.latchReply (s : State) (i0 i1 : Byte) : State :=
  { s with rxh := i0, rxl := i1 }

/-- `abort(tag, e)` (60_exceptions.md R208): the one operation that takes the machine's exceptions. No further call, an
`Err` response with the cause unchanged, `seq` to `IDLE`, the latches left as they are. -/
def State.abort (s : State) (c : Cause) : State := s.respond (.err c)

/-- The input event `Req` is consumed: the request leaves the host port. -/
def State.takeRequest (s : State) (rest : List Hreq) : State := { s with requests := rest }

/-- The input event `Ret` of a select call is consumed and recorded. -/
def State.takeSelect (s : State) (a : SelectAnswer) (rest : List SelectAnswer) : State :=
  { s with selectAnswers := rest, history := answerSelect a s.history }

/-- The input event `Ret` of an exchange is consumed and recorded. -/
def State.takeTransfer (s : State) (a : TransferAnswer) (rest : List TransferAnswer) : State :=
  { s with transferAnswers := rest, history := answerTransfer a s.history }

/-- Acceptance of a reading request (R147 rows T0, T2a, T2b; R148). While `seq` is not `IDLE` the request "is not taken
and has no effect; the host waits" (log entry 9). -/
def acceptRead (op : OpCode) (r : Sel) (s : State) : StepResult :=
  if s.seq = .idle then
    match commandWord r with
    | none => .next (s.respond .illegal)
    | some w =>
      if s.csExplicit then .next ((s.latch op r).issue .csLow .aSel)
      else .next ((s.latch op r).issue (exchangeOf w) .aXfer)
  else .next s

/-- The points at which R147 emits the command word: row T3, and row T2b once the request is latched. -/
def State.commandTurn (s : State) : Bool :=
  s.seq == .aSel || (s.seq == .idle && !s.csExplicit)

/-- The points at which R147 emits the no-op: row T9 and row T5b. -/
def State.nopTurn (s : State) : Bool :=
  s.seq == .bSel || (s.seq == .aXfer && !s.csExplicit)

/-- Transaction A's exchange for register `r` (41_transaction.md R141): the command word goes out, high byte first, if it
is due and the latch `rsel` holds `r`; otherwise no rule emits it. That it runs as an instruction, and where it is due, is
a DESIGN CHOICE (log entry 8), safe. -/
def sendCommand (r : Sel) (s : State) : StepResult :=
  if s.commandTurn && s.rsel == r then
    match commandWord r with
    | some w => .next (s.issue (exchangeOf w) .aXfer)
    | none => .fault .noCommandWord
  else .refused .wireWordOutOfTurn

/-- Transaction B's exchange (41_transaction.md R142): the no-op goes out if it is due. That it runs as an
instruction is a DESIGN CHOICE (log entry 8), safe. -/
def sendNop (s : State) : StepResult :=
  if s.nopTurn then .next (s.issue (exchangeOf nopWord) .bXfer) else .refused .wireWordOutOfTurn

/-- Completion of a read (R149): the response carries `RES(op, b0, b1)`. -/
def complete (b0 b1 : Byte) (s : State) : StepResult :=
  match completionData s.op b0 b1 with
  | some d => .next (s.respond (.ok d))
  | none => .fault .noCompletion

end Sys2Proof.Machine
end

