-- ==== Sys2Proof/Machine/Encoder.lean ====
section
/-! DEFINITION. The first family (40_encoder.md): the host operation `ENCODE` and the eight wire words. -/

namespace Sys2Proof.Machine

/-- `ENCODE r` (R113; R147 rows T0 and T1): the command word of a register, no collaborator call. -/
def execEncode (r : Sel) (s : State) : StepResult :=
  if s.seq = .idle then
    match commandWord r with
    | none => .next (s.respond .illegal)
    | some w => .next ((s.latch 0#3 r).respond (.ok w))
  else .next s

/-- `RD_CLEAR_ERROR_FLAG` (R114), `r = 0`. -/
def execRdClearErrorFlag (s : State) : StepResult := sendCommand 0#3 s

/-- `RD_PROGRAMMING_CONTROL` (R115), `r = 1`. -/
def execRdProgrammingControl (s : State) : StepResult := sendCommand 1#3 s

/-- `RD_OTP_ZERO_POS_HIGH` (R116), `r = 2`. -/
def execRdOtpZeroPosHigh (s : State) : StepResult := sendCommand 2#3 s

/-- `RD_OTP_ZERO_POS_LOW` (R117), `r = 3`. -/
def execRdOtpZeroPosLow (s : State) : StepResult := sendCommand 3#3 s

/-- `RD_DIAG_AGC` (R118), `r = 4`. -/
def execRdDiagAgc (s : State) : StepResult := sendCommand 4#3 s

/-- `RD_MAGNITUDE` (R119), `r = 5`. -/
def execRdMagnitude (s : State) : StepResult := sendCommand 5#3 s

/-- `RD_ANGLE` (R120), `r = 6`. -/
def execRdAngle (s : State) : StepResult := sendCommand 6#3 s

/-- `NOP` (R121): Transaction B's word. -/
def execNop (s : State) : StepResult := sendNop s

end Sys2Proof.Machine
end

