-- ==== Sys2Proof/Machine/Reader.lean ====
section
/-! DEFINITION. The third family (42_decoder.md): the four host operations that read a register and decode the reply.
Each is accepted here; the sequencer carries it on, and its decode is `completionData` of the latched `op` (R149). -/

namespace Sys2Proof.Machine

/-- `READ_U16 r` (R172). -/
def execReadU16 (r : Sel) (s : State) : StepResult := acceptRead 2#3 r s

/-- `DIAG_GAIN` (R173): the register is `DiagAgc`, selector 4, whatever the field holds (R90, R148). -/
def execDiagGain (_ignored : Sel) (s : State) : StepResult := acceptRead 3#3 4#3 s

/-- `MAGNITUDE` (R174): the register is `Magnitude`, selector 5. -/
def execMagnitude (_ignored : Sel) (s : State) : StepResult := acceptRead 4#3 5#3 s

/-- `ANGLE` (R175): the register is `Angle`, selector 6. -/
def execAngle (_ignored : Sel) (s : State) : StepResult := acceptRead 5#3 6#3 s

end Sys2Proof.Machine
end

