-- ==== Sys2Proof/Machine/Transaction.lean ====
section
/-! DEFINITION. The second family (41_transaction.md): the host operation `EXECUTE`. Its meaning is the step that accepts
it and makes its first call; the rows T3 to T14 of R147 carry it on (Machine/Sequencer.lean), a call and its answer being
two events (R150). -/

namespace Sys2Proof.Machine

/-- `EXECUTE r` (R140; R147 rows T0, T2a, T2b). -/
def execExecute (r : Sel) (s : State) : StepResult := acceptRead 1#3 r s

end Sys2Proof.Machine
end

