-- ==== Sys2Proof/Machine/Dispatch.lean ====
section
/-! DEFINITION. One arm per instruction. -/

namespace Sys2Proof.Machine

def exec (i : Instr) (s : State) : Host.Outcome State Fault Refusal :=
  match i with
  | .encode r => Sys2Proof.Machine.execEncode r s
  | .execute r => Sys2Proof.Machine.execExecute r s
  | .readU16 r => Sys2Proof.Machine.execReadU16 r s
  | .diagGain r => Sys2Proof.Machine.execDiagGain r s
  | .magnitude r => Sys2Proof.Machine.execMagnitude r s
  | .angle r => Sys2Proof.Machine.execAngle r s
  | .rdClearErrorFlag => Sys2Proof.Machine.execRdClearErrorFlag s
  | .rdProgrammingControl => Sys2Proof.Machine.execRdProgrammingControl s
  | .rdOtpZeroPosHigh => Sys2Proof.Machine.execRdOtpZeroPosHigh s
  | .rdOtpZeroPosLow => Sys2Proof.Machine.execRdOtpZeroPosLow s
  | .rdDiagAgc => Sys2Proof.Machine.execRdDiagAgc s
  | .rdMagnitude => Sys2Proof.Machine.execRdMagnitude s
  | .rdAngle => Sys2Proof.Machine.execRdAngle s
  | .nop => Sys2Proof.Machine.execNop s

end Sys2Proof.Machine
end

