-- ==== Sys2Proof/Machine/Sequencer.lean ====
section
/-! DEFINITION. The sequencer: rows T0 to T14 of 41_transaction.md R147. A row takes the one input event its state
waits for and gives one output event. Where no input is there yet, the PE waits and nothing changes (R150; log entry 3).
A row that puts a word on the wire fetches the word, decodes it and runs it as an instruction: DESIGN CHOICE
(log entry 8), safe. -/

namespace Sys2Proof.Machine

/-- Run a word the PE is about to put on the wire; `none` where the selector latch names no register. -/
def runWireWord (w : Option Word) (s : State) : StepResult :=
  match w with
  | none => .fault .noCommandWord
  | some w =>
    match decodeWire w with
    | .ok i => exec i s
    | .error _ => .fault .noCommandWord

/-- `IDLE` with the request `w` (rows T0, T1, T2a, T2b): a word the decoder refuses is answered `Illegal` (R92). -/
def rowRequest (w : Hreq) (s : State) : StepResult :=
  match decodeHreq w with
  | .ok i => exec i s
  | .error _ => .next (s.respond .illegal)

/-- `A_SEL` (rows T3, T4). -/
def rowASel (a : SelectAnswer) (s : State) : StepResult :=
  match a with
  | .ok => runWireWord (commandWord s.rsel) s
  | .err e => .next (s.abort (.chipSelect e))

/-- `A_XFER` (rows T5a, T5b, T6): the two bytes are dropped (R141). -/
def rowAXfer (a : TransferAnswer) (s : State) : StepResult :=
  match a with
  | .ok _ _ => if s.csExplicit then .next (s.issue .csHigh .aDes) else runWireWord (some nopWord) s
  | .err e => .next (s.abort (.transport e))

/-- `A_DES` (rows T7, T8). -/
def rowADes (a : SelectAnswer) (s : State) : StepResult :=
  match a with
  | .ok => .next (s.issue .csLow .bSel)
  | .err e => .next (s.abort (.chipSelect e))

/-- `B_SEL` (rows T9, T10). -/
def rowBSel (a : SelectAnswer) (s : State) : StepResult :=
  match a with
  | .ok => runWireWord (some nopWord) s
  | .err e => .next (s.abort (.chipSelect e))

/-- `B_XFER` (rows T11a, T11b, T12): the two bytes are latched (R142). -/
def rowBXfer (a : TransferAnswer) (s : State) : StepResult :=
  match a with
  | .ok i0 i1 =>
    if s.csExplicit then .next ((s.latchReply i0 i1).issue .csHigh .bDes)
    else complete i0 i1 (s.latchReply i0 i1)
  | .err e => .next (s.abort (.transport e))

/-- `B_DES` (rows T13, T14). -/
def rowBDes (a : SelectAnswer) (s : State) : StepResult :=
  match a with
  | .ok => complete s.rxh s.rxl s
  | .err e => .next (s.abort (.chipSelect e))

/-- Wait for the next request (R148). -/
def awaitRequest (s : State) : StepResult :=
  match s.requests with
  | [] => .next s
  | w :: rest => rowRequest w (s.takeRequest rest)

/-- Wait for the answer to a select call, then take the row (R53, R150). -/
def awaitSelect (row : SelectAnswer → State → StepResult) (s : State) : StepResult :=
  match s.selectAnswers with
  | [] => .next s
  | a :: rest => row a (s.takeSelect a rest)

/-- Wait for the answer to an exchange, then take the row (R53, R150). -/
def awaitTransfer (row : TransferAnswer → State → StepResult) (s : State) : StepResult :=
  match s.transferAnswers with
  | [] => .next s
  | a :: rest => row a (s.takeTransfer a rest)

/-- The step relation of R147 as a function of the state. -/
def sequenceStep (s : State) : StepResult :=
  match s.seq with
  | .idle => awaitRequest s
  | .aSel => awaitSelect rowASel s
  | .aXfer => awaitTransfer rowAXfer s
  | .aDes => awaitSelect rowADes s
  | .bSel => awaitSelect rowBSel s
  | .bXfer => awaitTransfer rowBXfer s
  | .bDes => awaitSelect rowBDes s
  | .reserved => .fault .seqReserved

/-- Present a host request to an idle PE, ahead of those already waiting. -/
def State.placeRequest (s : State) (w : Hreq) : State :=
  { s with seq := .idle, requests := w :: s.requests }

/-- Put a PE built with an explicit chip-select at the point where the wire word `i` is due and its `CsLow` has been
answered `Ok`: the state of a read in progress, with the register the word names. The word itself is not stored: the
PE recomputes it (R31). -/
def State.placeWireWord (s : State) (i : Instr) : State :=
  let at_ (q : SeqState) (r : Sel) : State :=
    { s with csExplicit := true, seq := q, op := 1#3, rsel := r, history := .csLow none :: s.history,
             selectAnswers := .ok :: s.selectAnswers }
  match i with
  | .rdClearErrorFlag => at_ .aSel 0#3
  | .rdProgrammingControl => at_ .aSel 1#3
  | .rdOtpZeroPosHigh => at_ .aSel 2#3
  | .rdOtpZeroPosLow => at_ .aSel 3#3
  | .rdDiagAgc => at_ .aSel 4#3
  | .rdMagnitude => at_ .aSel 5#3
  | .rdAngle => at_ .aSel 6#3
  | .nop => at_ .bSel s.rsel
  | .encode _ => s
  | .execute _ => s
  | .readU16 _ => s
  | .diagGain _ => s
  | .magnitude _ => s
  | .angle _ => s

/-- Place a word of the opcode table where the next step fetches it: a request at the host port, or a wire word in the
sequencer; a word that fits neither port leaves the state as it is (log entries 17, 18). -/
def State.placeTableWord (s : State) (nbits w : Nat) : State :=
  if nbits ≤ 8 then
    if w < 64 then s.placeRequest (BitVec.ofNat 6 w) else s
  else
    if w < 65536 then
      match decodeWire (BitVec.ofNat 16 w) with
      | .ok i => s.placeWireWord i
      | .error _ => s
    else s

end Sys2Proof.Machine
end

