-- ==== Sys2Proof/Machine/Step.lean ====
section
/-! DEFINITION. One step of the machine, and where a word is placed for the next step to fetch it. -/

namespace Sys2Proof.Machine

/-- One step: one input event consumed, one output event given (00_scope.md R7; 41_transaction.md R147). -/
def step (s : State) : Host.Outcome State Fault Refusal := sequenceStep s

/-- `s` with the word `w` where the next step fetches its instruction (log entry 17). -/
def State.withFetchWord (s : State) (nbits w : Nat) : State := s.placeTableWord nbits w

end Sys2Proof.Machine
end

