-- ==== Sys2Proof/Machine/Procedure.lean ====
section
/-! DEFINITION. The whole operation as the document writes it (41_transaction.md R140): a procedure over the answers the
collaborators will give. R151 says that the sequencer's rows and this procedure agree, and that R140 wins. -/

namespace Sys2Proof.Machine

/-- The answers waiting at the two collaborators. -/
structure Answers where
  select : List SelectAnswer
  transfer : List TransferAnswer
  deriving DecidableEq, Repr

/-- How the procedure ends: with Transaction B's bytes, with the first failure, or waiting for an answer that has not
come (R150). -/
inductive ReadEnd where
  | done (b0 b1 : Byte)
  | failed (c : Cause)
  | waiting
  deriving DecidableEq, Repr

/-- What the procedure did: the calls it made with their answers, the earliest first, its end, and the answers left. -/
structure ReadTrace where
  calls : List Entry
  finish : ReadEnd
  left : Answers
  deriving DecidableEq, Repr

/-- The same trace after one more call at its start. -/
def ReadTrace.after (e : Entry) (t : ReadTrace) : ReadTrace := { t with calls := e :: t.calls }

/-- `CsLow() or raise ChipSelect`, `CsHigh() or raise ChipSelect` (R140). -/
def callSelect (mk : Option SelectAnswer → Entry) (a : Answers) (k : Answers → ReadTrace) : ReadTrace :=
  match a.select with
  | [] => { calls := [mk none], finish := .waiting, left := a }
  | .ok :: rest => (k { a with select := rest }).after (mk (some .ok))
  | .err e :: rest =>
    { calls := [mk (some (.err e))], finish := .failed (.chipSelect e), left := { a with select := rest } }

/-- `Transfer(hi8(w), lo8(w)) or raise Transport` (R140). -/
def callTransfer (w : Word) (a : Answers) (k : Byte → Byte → Answers → ReadTrace) : ReadTrace :=
  match a.transfer with
  | [] => { calls := [.transfer (hi8 w) (lo8 w) none], finish := .waiting, left := a }
  | .ok i0 i1 :: rest =>
    (k i0 i1 { a with transfer := rest }).after (.transfer (hi8 w) (lo8 w) (some (.ok i0 i1)))
  | .err e :: rest =>
    { calls := [.transfer (hi8 w) (lo8 w) (some (.err e))], finish := .failed (.transport e),
      left := { a with transfer := rest } }

/-- One transaction: the exchange, in its own bracket where chip-select is explicit (R143, R144). -/
def transaction (x : Bool) (w : Word) (a : Answers) (k : Byte → Byte → Answers → ReadTrace) : ReadTrace :=
  if x then
    callSelect .csLow a fun a =>
      callTransfer w a fun i0 i1 a =>
        callSelect .csHigh a fun a => k i0 i1 a
  else callTransfer w a k

/-- `EXECUTE` (R140) for a command word: Transaction A, whose bytes are dropped, then Transaction B with the no-op. -/
def executeProcedure (x : Bool) (cmd : Word) (a : Answers) : ReadTrace :=
  transaction x cmd a fun _ _ a =>
    transaction x nopWord a fun b0 b1 a => { calls := [], finish := .done b0 b1, left := a }

end Sys2Proof.Machine
end

