-- ==== Sys2Proof/Machine/Text.lean ====
section
/-! DEFINITION. The textual syntax of the test programs (30_encoding.md R96) and of the environment's script that stands
beside a program: lines of characters, cut into tokens, read as instructions and answers (log entry 19). -/

namespace Sys2Proof.Machine

/-- The document's name of a register (R22, R96). -/
def registerName (r : Sel) : Option String :=
  match r with
  | 0#3 => some "ClearErrorFlag"
  | 1#3 => some "ProgrammingControl"
  | 2#3 => some "OtpZeroPosHigh"
  | 3#3 => some "OtpZeroPosLow"
  | 4#3 => some "DiagAgc"
  | 5#3 => some "Magnitude"
  | 6#3 => some "Angle"
  | _ => none

/-- `<reg>` of R96: the document's name or the selector number 0 to 6. -/
def parseRegister (t : String) : Option Sel :=
  if t = "ClearErrorFlag" ∨ t = "0" then some 0#3
  else if t = "ProgrammingControl" ∨ t = "1" then some 1#3
  else if t = "OtpZeroPosHigh" ∨ t = "2" then some 2#3
  else if t = "OtpZeroPosLow" ∨ t = "3" then some 3#3
  else if t = "DiagAgc" ∨ t = "4" then some 4#3
  else if t = "Magnitude" ∨ t = "5" then some 5#3
  else if t = "Angle" ∨ t = "6" then some 6#3
  else none

/-- A line without its comment: "A semicolon starts a comment" (R96). -/
def stripComment : List Char → List Char
  | [] => []
  | c :: rest => if c = ';' then [] else c :: stripComment rest

/-- The tokens of a line: its runs of characters other than blanks and tabs. -/
def tokensOf : List Char → List (List Char)
  | [] => []
  | c :: rest =>
    if c = ' ' ∨ c = '\t' then [] :: tokensOf rest
    else
      match tokensOf rest with
      | [] => [[c]]
      | t :: ts => (c :: t) :: ts

/-- A line cut into its tokens, its comment dropped. -/
def cutLine (line : List Char) : List String :=
  ((tokensOf (stripComment line)).filter fun t => !t.isEmpty).map String.ofList

/-- One line of a program (R96): the mnemonic in capitals, then the register operand where there is one. Which `rsel`
field `DIAG_GAIN`, `MAGNITUDE` and `ANGLE` assemble to R96 leaves open, and 95_test_vectors.md writes `ANGLE` as 0x28 (P2)
and as 0x2F (P4): the field is 000 here. DESIGN CHOICE (log entry 19), safe: the operations ignore it (R90). -/
def parseLine : List String → Option Instr
  | [m, t] =>
    if m = "ENCODE" then (parseRegister t).map .encode
    else if m = "EXECUTE" then (parseRegister t).map .execute
    else if m = "READ_U16" then (parseRegister t).map .readU16
    else none
  | [m] =>
    if m = "DIAG_GAIN" then some (.diagGain 0#3)
    else if m = "MAGNITUDE" then some (.magnitude 0#3)
    else if m = "ANGLE" then some (.angle 0#3)
    else none
  | _ => none

/-- A program: its lines in order, those without a token left out; none if a line is no operation (R96). -/
def parseProgram : List (List Char) → Option (List Instr)
  | [] => some []
  | line :: rest =>
    match cutLine line with
    | [] => parseProgram rest
    | ts =>
      match parseLine ts, parseProgram rest with
      | some i, some is => some (i :: is)
      | _, _ => none

/-- The request word of a host operation (R89); a wire word is no request. -/
def requestWord : Instr → Option Hreq
  | .encode r => some (packHreq 0#3 r)
  | .execute r => some (packHreq 1#3 r)
  | .readU16 r => some (packHreq 2#3 r)
  | .diagGain r => some (packHreq 3#3 r)
  | .magnitude r => some (packHreq 4#3 r)
  | .angle r => some (packHreq 5#3 r)
  | .rdClearErrorFlag | .rdProgrammingControl | .rdOtpZeroPosHigh | .rdOtpZeroPosLow => none
  | .rdDiagAgc | .rdMagnitude | .rdAngle | .nop => none

/-- One line of the environment's script (R96): `T -> i0 i1`, `T -> Err(e)`, `L -> Ok`, `L -> Err(e)`, `H -> Ok`,
`H -> Err(e)`. -/
inductive ScriptLine where
  | t (i0 i1 : Byte)
  | tErr (e : TransportError)
  | l
  | lErr (e : ChipSelectError)
  | h
  | hErr (e : ChipSelectError)
  deriving DecidableEq, Repr

/-- A hexadecimal digit. -/
def hexDigit (c : Char) : Option Nat :=
  if '0' ≤ c ∧ c ≤ '9' then some (c.toNat - 48)
  else if 'A' ≤ c ∧ c ≤ 'F' then some (c.toNat - 55)
  else if 'a' ≤ c ∧ c ≤ 'f' then some (c.toNat - 87)
  else none

/-- A byte of a script: two hexadecimal digits. -/
def parseByte (t : String) : Option Byte :=
  match t.toList with
  | [h, l] =>
    match hexDigit h, hexDigit l with
    | some a, some b => some (BitVec.ofNat 8 (a * 16 + b))
    | _, _ => none
  | _ => none

/-- The token of the error named by some characters; different names give different tokens. -/
def errorToken (name : List Char) : Nat := name.foldl (fun n c => n * 0x110000 + c.toNat + 1) 0

/-- `Err(e)`: the error named `e`. -/
def parseErr (t : String) : Option Nat :=
  match t.toList with
  | 'E' :: 'r' :: 'r' :: '(' :: rest =>
    match rest.reverse with
    | ')' :: name => some (errorToken name.reverse)
    | _ => none
  | _ => none

/-- One line of a script (R96). -/
def parseScriptLine : List String → Option ScriptLine
  | [m, arrow, t] =>
    if arrow ≠ "->" then none
    else if m = "T" then (parseErr t).map fun n => .tErr ⟨n⟩
    else if m = "L" then if t = "Ok" then some .l else (parseErr t).map fun n => .lErr ⟨n⟩
    else if m = "H" then if t = "Ok" then some .h else (parseErr t).map fun n => .hErr ⟨n⟩
    else none
  | [m, arrow, t0, t1] =>
    if m = "T" ∧ arrow = "->" then
      match parseByte t0, parseByte t1 with
      | some i0, some i1 => some (.t i0 i1)
      | _, _ => none
    else none
  | _ => none

/-- A script: its lines in order, those without a token left out. -/
def parseScript : List (List Char) → Option (List ScriptLine)
  | [] => some []
  | line :: rest =>
    match cutLine line with
    | [] => parseScript rest
    | ts =>
      match parseScriptLine ts, parseScript rest with
      | some a, some as => some (a :: as)
      | _, _ => none

/-- The chip-select collaborator's answers in a script, in order. -/
def selectScript : List ScriptLine → List SelectAnswer
  | [] => []
  | .l :: rest => .ok :: selectScript rest
  | .h :: rest => .ok :: selectScript rest
  | .lErr e :: rest => .err e :: selectScript rest
  | .hErr e :: rest => .err e :: selectScript rest
  | .t _ _ :: rest => selectScript rest
  | .tErr _ :: rest => selectScript rest

/-- The transport's answers in a script, in order. -/
def transferScript : List ScriptLine → List TransferAnswer
  | [] => []
  | .t i0 i1 :: rest => .ok i0 i1 :: transferScript rest
  | .tErr e :: rest => .err e :: transferScript rest
  | .l :: rest => transferScript rest
  | .h :: rest => transferScript rest
  | .lErr _ :: rest => transferScript rest
  | .hErr _ :: rest => transferScript rest

/-- A program's requests and its script, added behind what is waiting already: what the host and the environment do to
run a program (log entry 17). -/
def State.load (s : State) (program : List Hreq) (script : List ScriptLine) : State :=
  { s with requests := s.requests ++ program,
           selectAnswers := s.selectAnswers ++ selectScript script,
           transferAnswers := s.transferAnswers ++ transferScript script }

/-- A program's text and its script loaded for a run; none if either has a line that R96 does not give. -/
def State.loadText (s : State) (program script : List (List Char)) : Option State :=
  match parseProgram program, parseScript script with
  | some is, some answers => some (s.load (is.filterMap requestWord) answers)
  | _, _ => none

end Sys2Proof.Machine
end

