-- ==== Sys2Proof/Safety.lean ====
section
/-! DEFINITION. What a safe run is, in the terms the statements use: the invariant of the machine, the select line and
the premise about the sensor read off the history, and the views under which two runs are compared. -/

namespace Sys2Proof.Machine

/-- `k` steps of the machine, stopping at a fault or a refusal; it is `Host.Core.run` of the core (Laws/Run.lean). -/
def run : Nat → State → StepResult
  | 0, s => .next s
  | k + 1, s =>
    match step s with
    | .next t => run k t
    | .fault r => .fault r
    | .refused r => .refused r

/-- `popcount(w)` (00_scope.md R8): how many bits are 1. -/
def popcount {n : Nat} (w : BitVec n) : Nat := (List.range n).countP fun k => w.getLsbD k

/-- The host operations that read (R149, `op` 1 to 5), with the codes they latch (R148). -/
def ReadRequest (i : Instr) (op : OpCode) (r : Sel) : Prop :=
  (i = .execute r ∧ op = 1#3 ∧ r ≠ 7#3) ∨ (i = .readU16 r ∧ op = 2#3 ∧ r ≠ 7#3) ∨
  ((∃ x, i = .diagGain x) ∧ op = 3#3 ∧ r = 4#3) ∨ ((∃ x, i = .magnitude x) ∧ op = 4#3 ∧ r = 5#3) ∨
  ((∃ x, i = .angle x) ∧ op = 5#3 ∧ r = 6#3)

/-- The latch contents a read in progress can have (R148). -/
def readLatches (op : OpCode) (r : Sel) : Bool :=
  ((op == 1#3 || op == 2#3) && r != 7#3) || (op == 3#3 && r == 4#3) || (op == 4#3 && r == 5#3) ||
  (op == 5#3 && r == 6#3)

/-- The illegal request words (30_encoding.md R92): `op` 6 or 7, or `op` 0, 1 or 2 with `rsel` 7. -/
def illegalRequest (w : Hreq) : Bool :=
  hreqOp w == 6#3 || hreqOp w == 7#3 ||
  ((hreqOp w == 0#3 || hreqOp w == 1#3 || hreqOp w == 2#3) && hreqSel w == 7#3)

/-- The calls of a read that succeeds, in order (41_transaction.md R143, R144). -/
def readPlan (x : Bool) (cmd : Word) : List Call :=
  if x then [.csLow, exchangeOf cmd, .csHigh, .csLow, exchangeOf nopWord, .csHigh]
  else [exchangeOf cmd, exchangeOf nopWord]

/-- The machine, idle in `s` with the request of a read at its port, does what the procedure of R140 does with the
answers that are waiting, and responds `data` of Transaction B's bytes, or the failure, or nothing while it waits: within
seven steps, and with the latches `op` and `r`, the command word `cmd` and the requests `rest` left. -/
def ReadsAs (s : State) (rest : List Hreq) (op : OpCode) (r : Sel) (cmd : Word) (data : Byte → Byte → Word) : Prop :=
  let tr := executeProcedure s.csExplicit cmd ⟨s.selectAnswers, s.transferAnswers⟩
  ∃ n t, n ≤ 7 ∧ run n s = .next t ∧
    t.csExplicit = s.csExplicit ∧ t.requests = rest ∧ t.op = op ∧ t.rsel = r ∧
    t.history = tr.calls.reverse ++ s.history ∧
    t.selectAnswers = tr.left.select ∧ t.transferAnswers = tr.left.transfer ∧
    match tr.finish with
    | .done b0 b1 => t.seq = .idle ∧ t.rxh = b0 ∧ t.rxl = b1 ∧ t.responses = .ok (data b0 b1) :: s.responses
    | .failed c => t.seq = .idle ∧ t.responses = .err c :: s.responses
    | .waiting => t.seq ≠ .idle ∧ t.responses = s.responses ∧ step t = .next t

/-- The call an entry records, whatever its answer. -/
def Entry.call : Entry → Call
  | .csLow _ => .csLow
  | .csHigh _ => .csHigh
  | .transfer o0 o1 _ => .transfer o0 o1

/-- The answer of an entry has come. -/
def Entry.answered : Entry → Bool
  | .csLow a => a.isSome
  | .csHigh a => a.isSome
  | .transfer _ _ a => a.isSome

/-- The call of an entry was answered `Ok`. -/
def Entry.succeeded : Entry → Bool
  | .csLow (some .ok) => true
  | .csHigh (some .ok) => true
  | .transfer _ _ (some (.ok _ _)) => true
  | .csLow _ | .csHigh _ | .transfer _ _ _ => false

/-- The call whose answer the PE waits for (10_state.md R24, the table's meanings). -/
def State.outstanding (s : State) : Option Call :=
  match s.seq with
  | .idle => none
  | .aSel => some .csLow
  | .aXfer => (commandWord s.rsel).map exchangeOf
  | .aDes => some .csHigh
  | .bSel => some .csLow
  | .bXfer => some (exchangeOf nopWord)
  | .bDes => some .csHigh
  | .reserved => none

/-- The history records exactly the outstanding call as unanswered, at its head; every other call is answered (R62, R66:
"at most one collaborator call is outstanding"). -/
def State.historyMatches (s : State) : Bool :=
  match s.outstanding, s.history with
  | none, h => h.all Entry.answered
  | some c, e :: h => e == c.entry && h.all Entry.answered
  | some _, [] => false

/-- The invariant of the machine: what holds after construction and after every step. -/
structure EngineInv (s : State) : Prop where
  /-- `seq` is one of the seven named states (R24). -/
  seqNamed : s.seq ≠ .reserved
  /-- Outside `IDLE` the latches name a reading operation and its register (R148). -/
  reading : s.seq ≠ .idle → readLatches s.op s.rsel = true
  /-- The states of the select calls are reached with an explicit chip-select only (R24). -/
  implicitSelect : s.csExplicit = false → s.seq = .idle ∨ s.seq = .aXfer ∨ s.seq = .bXfer
  /-- The history and the sequencer agree on the outstanding call. -/
  oneCall : s.historyMatches = true

/-- The level of the select line (10_state.md R30). -/
inductive Level where
  | low | high | unknown
  deriving DecidableEq, Repr

/-- The line's level from the recorded calls, the latest first (R30): "low after an `Ok` answer to `CsLow()`, high after
an `Ok` answer to `CsHigh()`, unknown before the first such answer and after any `Err` answer to either call". -/
def selectLevel : List Entry → Level
  | [] => .unknown
  | .csLow (some .ok) :: _ => .low
  | .csHigh (some .ok) :: _ => .high
  | .csLow (some (.err _)) :: _ => .unknown
  | .csHigh (some (.err _)) :: _ => .unknown
  | .csLow none :: h => selectLevel h
  | .csHigh none :: h => selectLevel h
  | .transfer _ _ _ :: h => selectLevel h

/-- Where the select line stands while a bracketed read is in progress (R143): asserted in each transaction, deasserted
before Transaction B's own `CsLow` is answered. -/
structure LineInv (s : State) : Prop where
  /-- Asserted from an exchange to its `CsHigh`. -/
  asserted : s.csExplicit = true → (s.seq = .aXfer ∨ s.seq = .aDes ∨ s.seq = .bXfer ∨ s.seq = .bDes) →
    selectLevel s.history = .low
  /-- Deasserted between the two transactions (70_reset_and_hazards.md R234). -/
  between : s.csExplicit = true → s.seq = .bSel → selectLevel s.history = .high

/-- The exchanges of a history, the latest first: the word sent and the answer. -/
def exchanges : List Entry → List (Word × Option TransferAnswer)
  | [] => []
  | .transfer o0 o1 a :: h => (wordOf o0 o1, a) :: exchanges h
  | .csLow _ :: h => exchanges h
  | .csHigh _ :: h => exchanges h

/-- The premise of 20_memory.md R60 about the environment's answers, on exchanges listed the latest first: the reply of
an exchange is an answer to the word sent in the exchange before it, where both went through. `answers w f` says that `f`
is one of the sensor's answers to `w`. -/
def Pipelined (answers : Word → Word → Prop) : List (Word × Option TransferAnswer) → Prop
  | [] => True
  | (_, some (.ok i0 i1)) :: (w, some (.ok p0 p1)) :: rest =>
    answers w (wordOf i0 i1) ∧ Pipelined answers ((w, some (.ok p0 p1)) :: rest)
  | _ :: rest => Pipelined answers rest

/-- The eight words of 30_encoding.md R88. -/
def wireWords : List Word :=
  [0x4001#16, 0xC003#16, 0x4016#16, 0xC017#16, 0x7FFD#16, 0x7FFE#16, 0xFFFF#16, 0x0000#16]

/-- Every exchange of a history sends one of the eight words (R93). -/
def WireInv (h : List Entry) : Prop := ∀ o0 o1 a, Entry.transfer o0 o1 a ∈ h → wordOf o0 o1 ∈ wireWords

/-- No select call was made, and no response reports one: the variant in which chip-select is the transport's (R202). -/
structure NoSelect (s : State) : Prop where
  calls : ∀ e ∈ s.history, ∃ o0 o1 a, e = Entry.transfer o0 o1 a
  responses : ∀ x ∈ s.responses, ∀ e, x ≠ Response.err (.chipSelect e)

/-- A run has ended well (R240): the last request is answered and the PE is idle. -/
def State.ended (s : State) : Bool := s.requests.isEmpty && s.seq == .idle

/-- Input events waiting. -/
def State.inputCount (s : State) : Nat :=
  s.requests.length + s.selectAnswers.length + s.transferAnswers.length

/-- Output events given: calls and responses. -/
def State.outputCount (s : State) : Nat := s.history.length + s.responses.length

/-- The input event the PE waits for is not there. -/
def State.starved (s : State) : Bool :=
  match s.seq with
  | .idle => s.requests.isEmpty
  | .aSel | .aDes | .bSel | .bDes => s.selectAnswers.isEmpty
  | .aXfer | .bXfer => s.transferAnswers.isEmpty
  | .reserved => false

/-- The outcome with its next state changed by `f`. -/
def mapNext (f : State → State) : StepResult → StepResult
  | .next s => .next (f s)
  | .fault r => .fault r
  | .refused r => .refused r

/-- The next state, if there is one. -/
def nextState : StepResult → Option State
  | .next s => some s
  | .fault _ => none
  | .refused _ => none

/-- The state without its record of calls. -/
def State.dropHistory (s : State) : State := { s with history := [] }

/-- The state with the answers struck out of its record of calls: which calls were made, and nothing the collaborators
answered. -/
def State.hideAnswers (s : State) : State := { s with history := s.history.map fun e => e.call.entry }

/-- The state without the collaborators' answers in its record and without the latch `rxh`. -/
def State.hideReply (s : State) : State := { s.hideAnswers with rxh := 0#8 }

/-- The state without its operation latch. -/
def State.dropOp (s : State) : State := { s with op := 0#3 }

/-- Other values for the collaborators' errors. -/
structure Renaming where
  transport : TransportError → TransportError
  chipSelect : ChipSelectError → ChipSelectError

/-- Rename the error of a select answer. -/
def SelectAnswer.rename (f : Renaming) : SelectAnswer → SelectAnswer
  | .ok => .ok
  | .err e => .err (f.chipSelect e)

/-- Rename the error of an exchange's answer. -/
def TransferAnswer.rename (f : Renaming) : TransferAnswer → TransferAnswer
  | .ok i0 i1 => .ok i0 i1
  | .err e => .err (f.transport e)

/-- Rename the error of a history entry. -/
def Entry.rename (f : Renaming) : Entry → Entry
  | .csLow a => .csLow (a.map (SelectAnswer.rename f))
  | .csHigh a => .csHigh (a.map (SelectAnswer.rename f))
  | .transfer o0 o1 a => .transfer o0 o1 (a.map (TransferAnswer.rename f))

/-- Rename the error of a cause. -/
def Cause.rename (f : Renaming) : Cause → Cause
  | .transport e => .transport (f.transport e)
  | .chipSelect e => .chipSelect (f.chipSelect e)

/-- Rename the error of a response. -/
def Response.rename (f : Renaming) : Response → Response
  | .ok d => .ok d
  | .err c => .err (c.rename f)
  | .illegal => .illegal

/-- Rename every error value of a state. -/
def State.rename (f : Renaming) (s : State) : State :=
  { s with selectAnswers := s.selectAnswers.map (SelectAnswer.rename f),
           transferAnswers := s.transferAnswers.map (TransferAnswer.rename f),
           history := s.history.map (Entry.rename f),
           responses := s.responses.map (Response.rename f) }

end Sys2Proof.Machine
end

