-- ==== Sys2Proof/Certificates/Slice0/Obligations.lean ====
section
/-! DEFINITION. The statements for the provers: what the numbered rules of spec/ say the Protocol Engine does. Every
statement holds for either value of the strap `CS_EXPLICIT` (a field of State) unless it names the one it is about. -/

open Sys2Proof Sys2Proof.Machine

/-! Construction and the invariant -/

/-- 70_reset_and_hazards.md section 1 (R230), 10_state.md R32: construction makes no call and gives no response, whatever
the strap. The latches' values are the model's choice (log entry 2) and are not stated. -/
def Obligations.ConstructionIsIdleAndSilent : Prop :=
  (∀ cs, (State.construct cs).seq = .idle ∧ (State.construct cs).history = [] ∧ (State.construct cs).responses = [] ∧
    (State.construct cs).requests = [] ∧ (State.construct cs).csExplicit = cs) ∧
  (∃ cs, State.reset = State.construct cs)

/-- The invariants of the machine and of the select line hold after construction. -/
def Obligations.InvariantHoldsAfterConstruction : Prop :=
  (∀ cs, EngineInv (State.construct cs) ∧ LineInv (State.construct cs)) ∧ EngineInv State.reset ∧ LineInv State.reset

/-- From every state with the invariant the step answers a next state, never a fault or a refusal, and keeps the
invariant: `seq` named, latches of a reading operation while busy, no select state without the strap, exactly the
outstanding call unanswered in the history. -/
def Obligations.EveryStepCompletesAndKeepsInvariant : Prop :=
  ∀ s : State, EngineInv s → ∃ t, step s = .next t ∧ EngineInv t

/-- 41_transaction.md R143, 70_reset_and_hazards.md R234: the select line is asserted in each of the two exchanges and
deasserted between them. -/
def Obligations.SelectLineFollowsTransactions : Prop :=
  ∀ s t : State, EngineInv s → LineInv s → step s = .next t → LineInv t

/-- 60_exceptions.md R210 (a), (b) and 95_test_vectors.md V6: the select line after a failed exchange, after a failed
select call and after a read that succeeds, with an explicit chip-select. -/
def Obligations.SelectLineAfterOperation : Prop :=
  (∀ (s : State) e rest, LineInv s → s.csExplicit = true → (s.seq = .aXfer ∨ s.seq = .bXfer) →
    s.transferAnswers = .err e :: rest → ∃ t, step s = .next t ∧ t.seq = .idle ∧ selectLevel t.history = .low) ∧
  (∀ (s : State) e rest, EngineInv s → (s.seq = .aSel ∨ s.seq = .aDes ∨ s.seq = .bSel ∨ s.seq = .bDes) →
    s.selectAnswers = .err e :: rest → ∃ t, step s = .next t ∧ t.seq = .idle ∧ selectLevel t.history = .unknown) ∧
  (∀ (s : State) rest, EngineInv s → s.seq = .bDes → s.selectAnswers = .ok :: rest →
    ∃ t, step s = .next t ∧ t.seq = .idle ∧ selectLevel t.history = .high)

/-- 10_state.md R24 (code 7), 93_implementation_defined.md H6, and log entry 7: where the machine stops. -/
def Obligations.StopsInUnreachableStates : Prop :=
  (∀ s : State, s.seq = .reserved → step s = .fault .seqReserved) ∧
  (∀ (s : State) rest, s.seq = .aSel → s.selectAnswers = .ok :: rest → s.rsel = 7#3 → step s = .fault .noCommandWord) ∧
  (∀ (s : State) rest, s.seq = .bDes → s.selectAnswers = .ok :: rest → (s.op = 0#3 ∨ s.op = 6#3 ∨ s.op = 7#3) →
    step s = .fault .noCompletion) ∧
  (∀ (s : State) i0 i1 rest, s.seq = .bXfer → s.csExplicit = false → s.transferAnswers = .ok i0 i1 :: rest →
    (s.op = 0#3 ∨ s.op = 6#3 ∨ s.op = 7#3) → step s = .fault .noCompletion)

/-! Fetching and running -/

/-- A step of an idle machine runs the instruction its decoder reads from the request at the host port. -/
def Obligations.StepRunsDecodedRequest : Prop :=
  ∀ (s : State) w rest i, s.seq = .idle → s.requests = w :: rest → decodeHreq w = .ok i →
    step s = exec i { s with requests := rest }

/-- DESIGN CHOICE, log entry 8: a step at which a word is due on the wire fetches, decodes and runs it as an instruction,
after recording the answer that made it due. The spec says only that the word is sent there (41_transaction.md R147, rows
T3, T5b, T9); 60_exceptions.md R213 calls the no-op "a word on the wire, not an instruction of the host". -/
def Obligations.StepRunsDecodedWireWord : Prop :=
  (∀ (s : State) rest w i, s.seq = .aSel → s.selectAnswers = .ok :: rest → commandWord s.rsel = some w → decodeWire w = .ok i →
    step s = exec i { s with selectAnswers := rest, history := answerSelect .ok s.history }) ∧
  (∀ (s : State) rest, s.seq = .bSel → s.selectAnswers = .ok :: rest →
    step s = exec .nop { s with selectAnswers := rest, history := answerSelect .ok s.history }) ∧
  (∀ (s : State) i0 i1 rest, s.seq = .aXfer → s.csExplicit = false → s.transferAnswers = .ok i0 i1 :: rest →
    step s = exec .nop { s with transferAnswers := rest, history := answerTransfer (.ok i0 i1) s.history })

/-- 30_encoding.md R92: which requests are illegal, and what the PE does with one. -/
def Obligations.IllegalRequestsAreRefused : Prop :=
  (∀ w : Hreq, illegalRequest w = true ↔
    (w.toNat = 0x07 ∨ w.toNat = 0x0F ∨ w.toNat = 0x17 ∨ (0x30 ≤ w.toNat ∧ w.toNat ≤ 0x3F))) ∧
  ((List.range 64).countP fun k => illegalRequest (BitVec.ofNat 6 k)) = 19 ∧
  (∀ w : Hreq, illegalRequest w = true ↔ ¬ ∃ i, decodeHreq w = .ok i) ∧
  (∀ (s : State) w rest, s.seq = .idle → s.requests = w :: rest → illegalRequest w = true →
    step s = .next { s with requests := rest, responses := .illegal :: s.responses })

/-- 41_transaction.md R148: a legal request is latched when the PE is idle, with selector 4, 5, 6 for the three
operations that name their register; an illegal one latches nothing; while the PE is busy a request has no effect, and
its steps are the same whatever waits at the host port, which stays there. -/
def Obligations.OnlyIdleEngineTakesRequests : Prop :=
  (∀ (s : State) i o r, ReadRequest i o r → s.seq = .idle → s.csExplicit = true →
    exec i s = .next { s with op := o, rsel := r, seq := .aSel, history := .csLow none :: s.history }) ∧
  (∀ (s : State) i o r, ReadRequest i o r → s.seq = .idle → s.csExplicit = false →
    ∃ w, commandWord r = some w ∧
      exec i s = .next { s with op := o, rsel := r, seq := .aXfer,
                                history := .transfer (hi8 w) (lo8 w) none :: s.history }) ∧
  (∀ (s : State) r, r ≠ 7#3 → s.seq = .idle →
    ∃ w, commandWord r = some w ∧
      exec (.encode r) s = .next { s with op := 0#3, rsel := r, responses := .ok w :: s.responses }) ∧
  (∀ s : State, s.seq = .idle → ∀ i, (i = .encode 7#3 ∨ i = .execute 7#3 ∨ i = .readU16 7#3) →
    exec i s = .next { s with responses := .illegal :: s.responses }) ∧
  (∀ (s : State) r, s.seq ≠ .idle → ∀ i, (i = .encode r ∨ i = .execute r ∨ i = .readU16 r ∨ i = .diagGain r ∨
    i = .magnitude r ∨ i = .angle r) → exec i s = .next s) ∧
  (∀ (s : State) w rest, s.seq = .idle → s.requests = w :: rest → illegalRequest w = true →
    step s = .next { s with requests := rest, responses := .illegal :: s.responses }) ∧
  (∀ (s : State) q, s.seq ≠ .idle →
    step { s with requests := q } = mapNext (fun t => { t with requests := q }) (step s))

/-! The encoder -/

/-- 40_encoder.md R110. -/
def Obligations.FoldIsParity : Prop :=
  (∀ w : Word,
    (fold16 w).f8 = w.extractLsb' 8 8 ^^^ w.extractLsb' 0 8 ∧
    (fold16 w).f4 = (fold16 w).f8.extractLsb' 4 4 ^^^ (fold16 w).f8.extractLsb' 0 4 ∧
    (fold16 w).f2 = (fold16 w).f4.extractLsb' 2 2 ^^^ (fold16 w).f4.extractLsb' 0 2 ∧
    (fold16 w).f1 = (fold16 w).f2.extractLsb' 1 1 ^^^ (fold16 w).f2.extractLsb' 0 1 ∧
    (fold16 w).f1.toNat = popcount w % 2) ∧
  fold16 0x0000#16 = ⟨0#8, 0#4, 0#2, 0#1⟩ ∧ (fold16 0xFFFF#16).f8 = 0#8 ∧ (fold16 0xFFFF#16).f1 = 0#1 ∧
  fold16 0x7FFF#16 = ⟨0x80#8, 0x8#4, 2#2, 1#1⟩

/-- 40_encoder.md R111. -/
def Obligations.SetParityIsIdempotentAndEven : Prop :=
  (∀ w : Word, setPar w = w ||| ((fold16 w).f1.setWidth 16 <<< 15)) ∧
  (∀ w : Word, w.getLsbD 15 = false → popcount (setPar w) % 2 = 0 ∧ ((fold16 w).f1 = 0#1 → setPar w = w)) ∧
  (∀ w : Word, w.getLsbD 15 = true → setPar w = w) ∧
  (∀ w : Word, setPar (setPar w) = setPar w) ∧
  setPar 0x8000#16 = 0x8000#16 ∧ setPar 0x7FFF#16 = 0xFFFF#16 ∧ setPar 0x7FFE#16 = 0x7FFE#16

/-- 40_encoder.md R122, (a) to (f) and the count of the addresses with `PAR = 1`. -/
def Obligations.CommandWordProperties : Prop :=
  (∀ a : Address,
    (encodeAddress a).extractLsb' 0 14 = a ∧ (encodeAddress a).getLsbD 14 = true ∧
    ((encodeAddress a).getLsbD 15).toNat = popcount (0x4000#16 ||| a.setWidth 16) % 2 ∧
    ((encodeAddress a).getLsbD 15).toNat = (popcount a + 1) % 2 ∧
    popcount (encodeAddress a) % 2 = 0 ∧ setPar (encodeAddress a) = encodeAddress a) ∧
  (∀ a b : Address, encodeAddress a = encodeAddress b → a = b) ∧
  ((List.range 16384).countP fun k => (encodeAddress (BitVec.ofNat 14 k)).getLsbD 15) = 8192

/-- 10_state.md R22, 40_encoder.md R114 to R120, 30_encoding.md R88: each register's address, command word, wire
instruction and the two bytes sent. -/
def Obligations.WireWordTable : Prop :=
  (addrOf 0#3 = some 0x0001#14 ∧ commandWord 0#3 = some 0x4001#16 ∧ encode .rdClearErrorFlag = [0x40#8, 0x01#8]) ∧
  (addrOf 1#3 = some 0x0003#14 ∧ commandWord 1#3 = some 0xC003#16 ∧ encode .rdProgrammingControl = [0xC0#8, 0x03#8]) ∧
  (addrOf 2#3 = some 0x0016#14 ∧ commandWord 2#3 = some 0x4016#16 ∧ encode .rdOtpZeroPosHigh = [0x40#8, 0x16#8]) ∧
  (addrOf 3#3 = some 0x0017#14 ∧ commandWord 3#3 = some 0xC017#16 ∧ encode .rdOtpZeroPosLow = [0xC0#8, 0x17#8]) ∧
  (addrOf 4#3 = some 0x3FFD#14 ∧ commandWord 4#3 = some 0x7FFD#16 ∧ encode .rdDiagAgc = [0x7F#8, 0xFD#8]) ∧
  (addrOf 5#3 = some 0x3FFE#14 ∧ commandWord 5#3 = some 0x7FFE#16 ∧ encode .rdMagnitude = [0x7F#8, 0xFE#8]) ∧
  (addrOf 6#3 = some 0x3FFF#14 ∧ commandWord 6#3 = some 0xFFFF#16 ∧ encode .rdAngle = [0xFF#8, 0xFF#8]) ∧
  (addrOf 7#3 = none ∧ nopWord = 0x0000#16 ∧ encode .nop = [0x00#8, 0x00#8])

/-- 30_encoding.md R93: exactly eight words can go out; none but the no-op has the read flag clear, an address outside the
map or a wrong parity. -/
def Obligations.OnlyEightWordsGoOut : Prop :=
  (∀ s t : State, step s = .next t → WireInv s.history → WireInv t.history) ∧
  (∀ w : Word, (∃ i, decodeWire w = .ok i) ↔ w ∈ wireWords) ∧
  wireWords.Nodup ∧ wireWords.length = 8 ∧
  (∀ w ∈ wireWords, w = nopWord ∨
    (w.getLsbD 14 = true ∧ (∃ r, addrOf r = some (w.extractLsb' 0 14)) ∧ popcount w % 2 = 0)) ∧
  (∀ w ∈ wireWords, ∃ s t, EngineInv s ∧ step s = .next t ∧
    t.history.head? = some (.transfer (hi8 w) (lo8 w) none))

/-- 40_encoder.md R113. -/
def Obligations.EncodeRespondsCommandWord : Prop :=
  (∀ (s : State) r a, s.seq = .idle → addrOf r = some a →
    exec (.encode r) s = .next { s with op := 0#3, rsel := r, responses := .ok (encodeAddress a) :: s.responses }) ∧
  (∀ (s : State) r, s.seq = .idle → r ≠ 7#3 → ∃ a, addrOf r = some a) ∧
  (∀ s : State, s.seq = .idle → exec (.encode 7#3) s = .next { s with responses := .illegal :: s.responses }) ∧
  (∀ s : State, s.seq = .idle →
    exec (.encode 6#3) s = .next { s with op := 0#3, rsel := 6#3, responses := .ok 0xFFFF#16 :: s.responses })

/-- DESIGN CHOICE, log entry 8: a command word is run as an instruction, and it is due in `A_SEL` or on an idle engine with
chip-select in the transport, where the latch `rsel` names its register. What it then does is the exchange of rows T3 and
T2b of 41_transaction.md R147 (R141; 40_encoder.md R114 to R120): its two bytes, high byte first, and nothing else. -/
def Obligations.CommandWordsAreSent : Prop :=
  ∀ s : State, (s.seq = .aSel ∨ (s.seq = .idle ∧ s.csExplicit = false)) →
    (s.rsel = 0#3 → exec .rdClearErrorFlag s =
      .next { s with seq := .aXfer, history := .transfer 0x40#8 0x01#8 none :: s.history }) ∧
    (s.rsel = 1#3 → exec .rdProgrammingControl s =
      .next { s with seq := .aXfer, history := .transfer 0xC0#8 0x03#8 none :: s.history }) ∧
    (s.rsel = 2#3 → exec .rdOtpZeroPosHigh s =
      .next { s with seq := .aXfer, history := .transfer 0x40#8 0x16#8 none :: s.history }) ∧
    (s.rsel = 3#3 → exec .rdOtpZeroPosLow s =
      .next { s with seq := .aXfer, history := .transfer 0xC0#8 0x17#8 none :: s.history }) ∧
    (s.rsel = 4#3 → exec .rdDiagAgc s =
      .next { s with seq := .aXfer, history := .transfer 0x7F#8 0xFD#8 none :: s.history }) ∧
    (s.rsel = 5#3 → exec .rdMagnitude s =
      .next { s with seq := .aXfer, history := .transfer 0x7F#8 0xFE#8 none :: s.history }) ∧
    (s.rsel = 6#3 → exec .rdAngle s =
      .next { s with seq := .aXfer, history := .transfer 0xFF#8 0xFF#8 none :: s.history })

/-- DESIGN CHOICE, log entry 8: the no-op is run as an instruction where it is due, in `B_SEL` or in `A_XFER` with
chip-select in the transport. What it then does is the exchange of two zero bytes of rows T9 and T5b of 41_transaction.md
R147 (R142; 40_encoder.md R121). -/
def Obligations.NoOpIsSent : Prop :=
  ∀ s : State, (s.seq = .bSel ∨ (s.seq = .aXfer ∧ s.csExplicit = false)) →
    exec .nop s = .next { s with seq := .bXfer, history := .transfer 0x00#8 0x00#8 none :: s.history }

/-- Log entry 8, after R121 "and at no other time", R213 and R147 "has no step": a wire word that is not due is refused. -/
def Obligations.WireWordsOutOfTurnAreRefused : Prop :=
  (∀ (s : State) i r, ((i = .rdClearErrorFlag ∧ r = 0#3) ∨ (i = .rdProgrammingControl ∧ r = 1#3) ∨
      (i = .rdOtpZeroPosHigh ∧ r = 2#3) ∨ (i = .rdOtpZeroPosLow ∧ r = 3#3) ∨ (i = .rdDiagAgc ∧ r = 4#3) ∨
      (i = .rdMagnitude ∧ r = 5#3) ∨ (i = .rdAngle ∧ r = 6#3)) →
    (s.rsel ≠ r ∨ ¬ (s.seq = .aSel ∨ (s.seq = .idle ∧ s.csExplicit = false))) →
    exec i s = .refused .wireWordOutOfTurn) ∧
  (∀ s : State, ¬ (s.seq = .bSel ∨ (s.seq = .aXfer ∧ s.csExplicit = false)) → exec .nop s = .refused .wireWordOutOfTurn)

/-! The transaction -/

/-- 41_transaction.md R147, the table: rows T0 to T14, and no step without an input. -/
def Obligations.SequencerTable : Prop :=
  -- T0
  (∀ (s : State) w rest, s.seq = .idle → s.requests = w :: rest → illegalRequest w = true →
    step s = .next { s with requests := rest, responses := .illegal :: s.responses }) ∧
  -- T1
  (∀ (s : State) w rest, s.seq = .idle → s.requests = w :: rest → hreqOp w = 0#3 → hreqSel w ≠ 7#3 →
    ∃ cmd, commandWord (hreqSel w) = some cmd ∧
      step s = .next { s with requests := rest, op := 0#3, rsel := hreqSel w, responses := .ok cmd :: s.responses }) ∧
  -- T2a, T2b
  (∀ (s : State) w rest i o r, s.seq = .idle → s.requests = w :: rest → decodeHreq w = .ok i → ReadRequest i o r →
    (s.csExplicit = true →
      step s = .next { s with requests := rest, op := o, rsel := r, seq := .aSel,
                              history := .csLow none :: s.history }) ∧
    (s.csExplicit = false → ∃ cmd, commandWord r = some cmd ∧
      step s = .next { s with requests := rest, op := o, rsel := r, seq := .aXfer,
                              history := .transfer (hi8 cmd) (lo8 cmd) none :: s.history })) ∧
  -- T3
  (∀ (s : State) rest cmd, s.seq = .aSel → s.selectAnswers = .ok :: rest → commandWord s.rsel = some cmd →
    step s = .next { s with selectAnswers := rest, seq := .aXfer,
                            history := .transfer (hi8 cmd) (lo8 cmd) none :: answerSelect .ok s.history }) ∧
  -- T4, T8, T10, T14
  (∀ (s : State) e rest, (s.seq = .aSel ∨ s.seq = .aDes ∨ s.seq = .bSel ∨ s.seq = .bDes) → s.selectAnswers = .err e :: rest →
    step s = .next { s with selectAnswers := rest, seq := .idle, history := answerSelect (.err e) s.history,
                            responses := .err (.chipSelect e) :: s.responses }) ∧
  -- T5a, T5b
  (∀ (s : State) i0 i1 rest, s.seq = .aXfer → s.transferAnswers = .ok i0 i1 :: rest →
    (s.csExplicit = true →
      step s = .next { s with transferAnswers := rest, seq := .aDes,
                              history := .csHigh none :: answerTransfer (.ok i0 i1) s.history }) ∧
    (s.csExplicit = false →
      step s = .next { s with transferAnswers := rest, seq := .bXfer,
                              history := .transfer 0#8 0#8 none :: answerTransfer (.ok i0 i1) s.history })) ∧
  -- T6, T12
  (∀ (s : State) e rest, (s.seq = .aXfer ∨ s.seq = .bXfer) → s.transferAnswers = .err e :: rest →
    step s = .next { s with transferAnswers := rest, seq := .idle, history := answerTransfer (.err e) s.history,
                            responses := .err (.transport e) :: s.responses }) ∧
  -- T7
  (∀ (s : State) rest, s.seq = .aDes → s.selectAnswers = .ok :: rest →
    step s = .next { s with selectAnswers := rest, seq := .bSel,
                            history := .csLow none :: answerSelect .ok s.history }) ∧
  -- T9
  (∀ (s : State) rest, s.seq = .bSel → s.selectAnswers = .ok :: rest →
    step s = .next { s with selectAnswers := rest, seq := .bXfer,
                            history := .transfer 0#8 0#8 none :: answerSelect .ok s.history }) ∧
  -- T11a, T11b
  (∀ (s : State) i0 i1 rest, s.seq = .bXfer → s.transferAnswers = .ok i0 i1 :: rest →
    (s.csExplicit = true →
      step s = .next { s with transferAnswers := rest, seq := .bDes, rxh := i0, rxl := i1,
                              history := .csHigh none :: answerTransfer (.ok i0 i1) s.history }) ∧
    (s.csExplicit = false → ∀ d, completionData s.op i0 i1 = some d →
      step s = .next { s with transferAnswers := rest, seq := .idle, rxh := i0, rxl := i1,
                              history := answerTransfer (.ok i0 i1) s.history, responses := .ok d :: s.responses })) ∧
  -- T13
  (∀ (s : State) rest d, s.seq = .bDes → s.selectAnswers = .ok :: rest → completionData s.op s.rxh s.rxl = some d →
    step s = .next { s with selectAnswers := rest, seq := .idle, history := answerSelect .ok s.history,
                            responses := .ok d :: s.responses }) ∧
  -- inputs without a row
  (∀ s : State, s.starved = true → step s = .next s)

/-- 60_exceptions.md R208: the abort. The failing call is the last one recorded, the response carries its value and its
tag, the latches are left as they are, and after a failed exchange the select line stays where it was, asserted. -/
def Obligations.AbortOnFirstFailure : Prop :=
  (∀ (s : State) e rest, EngineInv s → (s.seq = .aXfer ∨ s.seq = .bXfer) → s.transferAnswers = .err e :: rest →
    ∃ o0 o1 older, s.history = .transfer o0 o1 none :: older ∧
      step s = .next { s with seq := .idle, transferAnswers := rest,
                              history := .transfer o0 o1 (some (.err e)) :: older,
                              responses := .err (.transport e) :: s.responses } ∧
      selectLevel (.transfer o0 o1 (some (.err e)) :: older) = selectLevel s.history ∧
      (LineInv s → s.csExplicit = true → selectLevel s.history = .low)) ∧
  (∀ (s : State) e rest, EngineInv s → (s.seq = .aSel ∨ s.seq = .bSel) → s.selectAnswers = .err e :: rest →
    ∃ older, s.history = .csLow none :: older ∧
      step s = .next { s with seq := .idle, selectAnswers := rest, history := .csLow (some (.err e)) :: older,
                              responses := .err (.chipSelect e) :: s.responses }) ∧
  (∀ (s : State) e rest, EngineInv s → (s.seq = .aDes ∨ s.seq = .bDes) → s.selectAnswers = .err e :: rest →
    ∃ older, s.history = .csHigh none :: older ∧
      step s = .next { s with seq := .idle, selectAnswers := rest, history := .csHigh (some (.err e)) :: older,
                              responses := .err (.chipSelect e) :: s.responses })

/-- 41_transaction.md R150: no time-out, no cancellation. While the answer has not come the PE does nothing, whatever
requests the host adds. -/
def Obligations.UnansweredCallWaitsForever : Prop :=
  ∀ s : State, s.seq ≠ .idle → s.starved = true →
    ∀ n q, run n { s with requests := q } = .next { s with requests := q }

/-- 41_transaction.md R151: the sequencer's rows and the procedure of R140 agree, for either strap, every legal reading
request and every sequence of answers. -/
def Obligations.SequencerAgreesWithProcedure : Prop :=
  ∀ (s : State) w rest i o r, s.seq = .idle → s.requests = w :: rest → decodeHreq w = .ok i → ReadRequest i o r →
    ∃ cmd data, commandWord r = some cmd ∧ (∀ b0 b1, completionData o b0 b1 = some (data b0 b1)) ∧
      ReadsAs s rest o r cmd data

/-- 41_transaction.md R140: `EXECUTE r` responds Transaction B's two bytes as received, or the first failure, or
`Illegal` for selector 7. -/
def Obligations.ExecuteReturnsSecondReply : Prop :=
  (∀ (s : State) rest r a, s.seq = .idle → s.requests = packHreq 1#3 r :: rest → addrOf r = some a →
    ReadsAs s rest 1#3 r (encodeAddress a) fun b0 b1 => b0 ++ b1) ∧
  (∀ (s : State) rest, s.seq = .idle → s.requests = packHreq 1#3 7#3 :: rest →
    step s = .next { s with requests := rest, responses := .illegal :: s.responses })

/-- 42_decoder.md R172: `READ_U16 r` is `EXECUTE r` with the payload of the reply as its data. -/
def Obligations.ReadU16ReturnsPayload : Prop :=
  (∀ (s : State) rest r a, s.seq = .idle → s.requests = packHreq 2#3 r :: rest → addrOf r = some a →
    ReadsAs s rest 2#3 r (encodeAddress a) fun b0 b1 => (0#2 ++ b0.extractLsb' 0 6) ++ b1) ∧
  (∀ (s : State) rest, s.seq = .idle → s.requests = packHreq 2#3 7#3 :: rest →
    step s = .next { s with requests := rest, responses := .illegal :: s.responses })

/-- 42_decoder.md R173: `DIAG_GAIN` reads `DiagAgc` with the command word 0x7FFD and responds `0000 ‖ diag ‖ gain`. -/
def Obligations.DiagGainReturnsNibbleAndByte : Prop :=
  ∀ (s : State) rest x, s.seq = .idle → s.requests = packHreq 3#3 x :: rest →
    ReadsAs s rest 3#3 4#3 0x7FFD#16 fun b0 b1 => (0#4 ++ b0.extractLsb' 0 4) ++ b1

/-- 42_decoder.md R174: `MAGNITUDE` reads `Magnitude` with the command word 0x7FFE and responds the payload. -/
def Obligations.MagnitudeReturnsPayload : Prop :=
  ∀ (s : State) rest x, s.seq = .idle → s.requests = packHreq 4#3 x :: rest →
    ReadsAs s rest 4#3 5#3 0x7FFE#16 fun b0 b1 => (0#2 ++ b0.extractLsb' 0 6) ++ b1

/-- 42_decoder.md R175: `ANGLE` reads `Angle` with the command word 0xFFFF and responds the payload. -/
def Obligations.AngleReturnsPayload : Prop :=
  ∀ (s : State) rest x, s.seq = .idle → s.requests = packHreq 5#3 x :: rest →
    ReadsAs s rest 5#3 6#3 0xFFFF#16 fun b0 b1 => (0#2 ++ b0.extractLsb' 0 6) ++ b1

/-- 41_transaction.md R140, R143, R144: every reading request completes. Where its answers are waiting and all are `Ok`,
seven steps with an explicit chip-select, three without, make exactly the calls of the plan and respond `RES` of the
second reply. -/
def Obligations.EveryReadCompletes : Prop :=
  ∀ (s : State) w rest i o r cmd a0 a1 b0 b1 d ta, s.seq = .idle → s.requests = w :: rest → decodeHreq w = .ok i →
    ReadRequest i o r → commandWord r = some cmd → completionData o b0 b1 = some d →
    s.transferAnswers = .ok a0 a1 :: .ok b0 b1 :: ta →
    (s.csExplicit = true → ∀ sa, s.selectAnswers = .ok :: .ok :: .ok :: .ok :: sa →
      run 7 s = .next
        { s with
          requests := rest, op := o, rsel := r, rxh := b0, rxl := b1, selectAnswers := sa, transferAnswers := ta,
          responses := .ok d :: s.responses,
          history := .csHigh (some .ok) :: .transfer 0#8 0#8 (some (.ok b0 b1)) :: .csLow (some .ok) ::
            .csHigh (some .ok) :: .transfer (hi8 cmd) (lo8 cmd) (some (.ok a0 a1)) :: .csLow (some .ok) ::
            s.history }) ∧
    (s.csExplicit = false →
      run 3 s = .next
        { s with
          requests := rest, op := o, rsel := r, rxh := b0, rxl := b1, transferAnswers := ta,
          responses := .ok d :: s.responses,
          history := .transfer 0#8 0#8 (some (.ok b0 b1)) ::
            .transfer (hi8 cmd) (lo8 cmd) (some (.ok a0 a1)) :: s.history })

/-- 41_transaction.md R146, on the procedure of R140 (which R151 ties to the machine): the calls made are the plan's
first ones; every call before the last was answered `Ok`; the last one was too, or failed with the cause reported, or is
still waiting; a success made them all; no outcome makes more than two exchanges. -/
def Obligations.CallHistoriesOfARead : Prop :=
  ∀ x cmd a, let tr := executeProcedure x cmd a
    (tr.calls.map Entry.call <+: readPlan x cmd) ∧
    (exchanges tr.calls).length ≤ 2 ∧
    match tr.finish with
    | .done b0 b1 => tr.calls.map Entry.call = readPlan x cmd ∧ tr.calls.all Entry.succeeded = true ∧
        (exchanges tr.calls).length = 2 ∧ ∃ c, (exchanges tr.calls).getLast? = some (c, some (.ok b0 b1))
    | .failed (.transport e) => ∃ before o0 o1, before.all Entry.succeeded = true ∧
        tr.calls = before ++ [.transfer o0 o1 (some (.err e))]
    | .failed (.chipSelect e) => x = true ∧ ∃ before, before.all Entry.succeeded = true ∧
        (tr.calls = before ++ [.csLow (some (.err e))] ∨ tr.calls = before ++ [.csHigh (some (.err e))])
    | .waiting => ∃ before c, before.all Entry.succeeded = true ∧ tr.calls = before ++ [Call.entry c]

/-- 30_encoding.md R97: `MAGNITUDE` and `ANGLE` have codes of their own and no semantics of their own: but for the latch
`op`, every run is that of `READ_U16 5` or `READ_U16 6`. `READ_U16` and `DIAG_GAIN` do differ from `EXECUTE`. -/
def Obligations.PseudoOperationsExpand : Prop :=
  (∀ n (s : State) x rest, s.seq = .idle →
    mapNext State.dropOp (run (n + 1) { s with requests := packHreq 4#3 x :: rest }) =
    mapNext State.dropOp (run (n + 1) { s with requests := packHreq 2#3 5#3 :: rest })) ∧
  (∀ n (s : State) x rest, s.seq = .idle →
    mapNext State.dropOp (run (n + 1) { s with requests := packHreq 5#3 x :: rest }) =
    mapNext State.dropOp (run (n + 1) { s with requests := packHreq 2#3 6#3 :: rest })) ∧
  (∃ b0 b1, completionData 2#3 b0 b1 ≠ completionData 1#3 b0 b1) ∧
  (∃ b0 b1, completionData 3#3 b0 b1 ≠ completionData 1#3 b0 b1)

/-- 41_transaction.md R141: Transaction A sends the command word high byte first, and the bytes that come back are not
latched and influence no later call, state or response. -/
def Obligations.FirstReplyIsDiscarded : Prop :=
  (∀ (s : State) w rest i o r cmd, s.seq = .idle → s.csExplicit = false → s.requests = w :: rest → decodeHreq w = .ok i →
    ReadRequest i o r → commandWord r = some cmd →
    step s = .next { s with requests := rest, op := o, rsel := r, seq := .aXfer,
                            history := .transfer (hi8 cmd) (lo8 cmd) none :: s.history }) ∧
  (∀ (s : State) rest cmd, s.seq = .aSel → s.selectAnswers = .ok :: rest → commandWord s.rsel = some cmd →
    step s = .next { s with selectAnswers := rest, seq := .aXfer,
                            history := .transfer (hi8 cmd) (lo8 cmd) none :: answerSelect .ok s.history }) ∧
  (∀ n (s : State) (a0 a1 b0 b1 : Byte) rest, s.seq = .aXfer →
    mapNext State.hideAnswers (run (n + 1) { s with transferAnswers := .ok a0 a1 :: rest }) =
    mapNext State.hideAnswers (run (n + 1) { s with transferAnswers := .ok b0 b1 :: rest }))

/-! The decoder and the response -/

/-- 42_decoder.md R170. -/
def Obligations.PayloadIsLowFourteenBits : Prop :=
  (∀ b0 b1 : Byte, dec14 b0 b1 = b0.extractLsb' 0 6 ++ b1) ∧
  (∀ b0 c0 b1 : Byte, b0.extractLsb' 0 6 = c0.extractLsb' 0 6 → dec14 b0 b1 = dec14 c0 b1) ∧
  dec14 0xFF#8 0xFF#8 = 0x3FFF#14 ∧ dec14 0xC0#8 0x00#8 = 0#14 ∧ dec14 0x40#8 0x01#8 = 1#14 ∧
  dec14 0x12#8 0x34#8 = 0x1234#14

/-- 42_decoder.md R171, and its word form. -/
def Obligations.DiagGainDecodeIsByteLevel : Prop :=
  (∀ b0 b1 : Byte,
    decDiag b0 = b0.extractLsb' 0 4 ∧ decGain b1 = b1 ∧
    decDiag b0 = (wordOf b0 b1).extractLsb' 8 4 ∧ decGain b1 = (wordOf b0 b1).extractLsb' 0 8 ∧
    (((0#2 ++ decDiag b0) ++ decGain b1) = dec14 b0 b1 ↔ b0.extractLsb' 4 2 = 0#2)) ∧
  decDiag 0xFF#8 = 0xF#4 ∧ decGain 0xFF#8 = 0xFF#8 ∧ decDiag 0xF0#8 = 0#4 ∧ decGain 0x00#8 = 0#8 ∧
  decDiag 0xF3#8 = 3#4 ∧ decGain 0x55#8 = 0x55#8

/-- 42_decoder.md R177: ranges, onto, and how many replies share a value. -/
def Obligations.DecodersAreOnto : Prop :=
  (∀ b0 b1 : Byte, (dec14 b0 b1).toNat ≤ 0x3FFF ∧ (decDiag b0).toNat ≤ 0xF ∧ (decGain b1).toNat ≤ 0xFF) ∧
  (∀ d : BitVec 14, ∃ l : List (Byte × Byte), l.Nodup ∧ l.length = 4 ∧
    ∀ b0 b1, dec14 b0 b1 = d ↔ (b0, b1) ∈ l) ∧
  (∀ (g : BitVec 4) (k : BitVec 8), ∃ l : List (Byte × Byte), l.Nodup ∧ l.length = 16 ∧
    ∀ b0 b1, (decDiag b0 = g ∧ decGain b1 = k) ↔ (b0, b1) ∈ l)

/-- 42_decoder.md R176: two replies to the no-op that differ only in their status bits give the same calls, states and
responses, unless the operation is `EXECUTE`, which returns the raw bytes. -/
def Obligations.StatusBitsAreNeverRead : Prop :=
  (∀ n (s : State) (b0 c0 b1 : Byte) rest, s.seq = .bXfer → s.op ≠ 1#3 → b0.extractLsb' 0 6 = c0.extractLsb' 0 6 →
    mapNext State.hideReply (run (n + 1) { s with transferAnswers := .ok b0 b1 :: rest }) =
    mapNext State.hideReply (run (n + 1) { s with transferAnswers := .ok c0 b1 :: rest })) ∧
  (∀ b0 b1 : Byte, completionData 1#3 b0 b1 = some (b0 ++ b1))

/-- 30_encoding.md R91: the status codes, the tag, no data beside `Err` and `Illegal`, and the packing and the range of
each operation's data. -/
def Obligations.ResponseFormat : Prop :=
  (∀ d, (Response.ok d).status = 0#2 ∧ (Response.ok d).etag = none ∧ (Response.ok d).data = some d) ∧
  (∀ e, (Response.err (.transport e)).status = 1#2 ∧ (Response.err (.transport e)).etag = some 0#1 ∧
    (Response.err (.transport e)).data = none) ∧
  (∀ e, (Response.err (.chipSelect e)).status = 1#2 ∧ (Response.err (.chipSelect e)).etag = some 1#1 ∧
    (Response.err (.chipSelect e)).data = none) ∧
  (Response.illegal.status = 2#2 ∧ Response.illegal.etag = none ∧ Response.illegal.data = none) ∧
  (∀ x : Response, x.status ≠ 3#2) ∧
  (∀ r a, addrOf r = some a → encodeAddress a ∈ wireWords ∧ encodeAddress a ≠ nopWord) ∧
  (∀ b0 b1 : Byte, completionData 1#3 b0 b1 = some (b0 ++ b1)) ∧
  (∀ (o : OpCode) (b0 b1 : Byte), (o = 2#3 ∨ o = 4#3 ∨ o = 5#3) →
    ∃ d, completionData o b0 b1 = some d ∧ d.extractLsb' 14 2 = 0#2 ∧ d.extractLsb' 0 14 = dec14 b0 b1 ∧
      d.toNat ≤ 0x3FFF) ∧
  (∀ b0 b1 : Byte, ∃ d, completionData 3#3 b0 b1 = some d ∧ d.extractLsb' 12 4 = 0#4 ∧
    d.extractLsb' 8 4 = decDiag b0 ∧ d.extractLsb' 0 8 = decGain b1 ∧ d.toNat ≤ 0x0FFF) ∧
  (∀ s t : State, s.csExplicit = false → (s.seq = .idle ∨ s.seq = .aXfer ∨ s.seq = .bXfer) → step s = .next t →
    ∀ e, t.responses ≠ .err (.chipSelect e) :: s.responses)

/-! Rules over the whole machine -/

/-- 10_state.md R20: the responses and the calls of every run from an idle PE are a function of the requests, the strap
and the answers: what the latches, the history and the past responses hold makes no difference. -/
def Obligations.NothingSurvivesAnOperation : Prop :=
  ∀ n (s : State) (t : State), s.seq = .idle → t.seq = .idle → s.csExplicit = t.csExplicit → s.requests = t.requests →
    s.selectAnswers = t.selectAnswers → s.transferAnswers = t.transferAnswers →
    ∃ s' t' calls replies, run n s = .next s' ∧ run n t = .next t' ∧
      s'.history = calls ++ s.history ∧ t'.history = calls ++ t.history ∧
      s'.responses = replies ++ s.responses ∧ t'.responses = replies ++ t.responses ∧
      s'.seq = t'.seq ∧ s'.requests = t'.requests ∧ s'.selectAnswers = t'.selectAnswers ∧
      s'.transferAnswers = t'.transferAnswers

/-- 20_memory.md R66: "The PE itself never reads the history". -/
def Obligations.HistoryIsNeverRead : Prop :=
  ∀ n (s : State) h, mapNext State.dropHistory (run n { s with history := h }) = mapNext State.dropHistory (run n s)

/-- 00_scope.md R7, 20_memory.md R62: a step consumes the one input event its state waits for and gives one output
event, a call or a response; without that input nothing changes. What was recorded stays. -/
def Obligations.OneInputOneOutput : Prop :=
  ∀ s t : State, step s = .next t →
    (s.starved = true ∧ t = s) ∨
    (s.starved = false ∧ t.inputCount + 1 = s.inputCount ∧
      ((∃ c, t.history.map Entry.call = c :: s.history.map Entry.call ∧ t.responses = s.responses) ∨
       (∃ x, t.responses = x :: s.responses ∧ t.history.map Entry.call = s.history.map Entry.call ∧ t.seq = .idle)))

/-- The frame of every instruction: what `exec` leaves unchanged. A host operation may write `op` and `rsel`, make its
first call or give its response; a wire word makes one call; the strap, the reply latches and the inputs stay. -/
def Obligations.InstructionFrame : Prop :=
  (∀ i (s : State) (t : State), exec i s = .next t →
    t.csExplicit = s.csExplicit ∧ t.rxh = s.rxh ∧ t.rxl = s.rxl ∧ t.requests = s.requests ∧
    t.selectAnswers = s.selectAnswers ∧ t.transferAnswers = s.transferAnswers ∧
    (t.history = s.history ∨ ∃ e, t.history = e :: s.history) ∧
    (t.responses = s.responses ∨ ∃ x, t.responses = x :: s.responses)) ∧
  (∀ r (s : State) (t : State), exec (.encode r) s = .next t → t.history = s.history ∧ t.seq = s.seq) ∧
  (∀ (s : State) (t : State) i, (i = .rdClearErrorFlag ∨ i = .rdProgrammingControl ∨ i = .rdOtpZeroPosHigh ∨ i = .rdOtpZeroPosLow ∨
      i = .rdDiagAgc ∨ i = .rdMagnitude ∨ i = .rdAngle ∨ i = .nop) → exec i s = .next t →
    t.op = s.op ∧ t.rsel = s.rsel ∧ t.responses = s.responses)

/-- 10_state.md R26: no step changes the strap. -/
def Obligations.StrapNeverChanges : Prop :=
  ∀ n (s : State) (t : State), run n s = .next t → t.csExplicit = s.csExplicit

/-- 60_exceptions.md R202, 41_transaction.md R144: where chip-select is the transport's, no select call is made, no
`ChipSelect` failure is reported, and the select states are not entered. -/
def Obligations.ImplicitVariantMakesNoSelectCall : Prop :=
  ∀ n (s : State) (t : State), s.csExplicit = false → (s.seq = .idle ∨ s.seq = .aXfer ∨ s.seq = .bXfer) → NoSelect s →
    run n s = .next t → NoSelect t ∧ (t.seq = .idle ∨ t.seq = .aXfer ∨ t.seq = .bXfer)

/-- 60_exceptions.md R200, R201, R202: a failure's value is "propagated to the caller verbatim" and nothing depends on
it: exchanging the collaborators' error values exchanges them in the record and the responses and changes nothing else. -/
def Obligations.ErrorValuesPassUnchanged : Prop :=
  ∀ f n (s : State), run n (s.rename f) = mapNext (State.rename f) (run n s)

/-- 20_memory.md R60, as a premise about the environment (R61): if every reply is an answer to the word sent in the
exchange before, the data of a read that succeeds is that of an answer to its own command word. -/
def Obligations.PipelinedReplyAnswersCommand : Prop :=
  ∀ (answers : Word → Word → Prop) s w i o r cmd t d, s.seq = .idle → s.requests = [w] → decodeHreq w = .ok i →
    ReadRequest i o r → commandWord r = some cmd →
    run 7 s = .next t → t.responses = .ok d :: s.responses → Pipelined answers (exchanges t.history) →
    ∃ f, answers cmd f ∧ completionData o (hi8 f) (lo8 f) = some d

/-! Encoding -/

/-- Decoding the encoding of a well-formed instruction gives it back, with every operand bit. -/
def Obligations.DecodeOfEncode : Prop :=
  ∀ i : Instr, i.wf = true → decodeBytes (encode i) = .ok i

/-- Whatever the decoder accepts is well formed, and its encoding is the bytes that were read. -/
def Obligations.EncodeOfDecode : Prop :=
  ∀ bs i, decodeBytes bs = .ok i → i.wf = true ∧ encode i = bs

/-- 30_encoding.md R88, R89 (V7 and V3 of 95_test_vectors.md): words written out bit by bit. -/
def Obligations.SpecWordsDecode : Prop :=
  decodeBytes [0b00000110#8] = .ok (.encode 6#3) ∧ decodeBytes [0b00001101#8] = .ok (.execute 5#3) ∧
  decodeBytes [0b00010000#8] = .ok (.readU16 0#3) ∧ decodeBytes [0b00011000#8] = .ok (.diagGain 0#3) ∧
  decodeBytes [0b00100000#8] = .ok (.magnitude 0#3) ∧ decodeBytes [0b00101111#8] = .ok (.angle 7#3) ∧
  decodeBytes [0b00010111#8] = .error .reservedSelector ∧ decodeBytes [0b00110000#8] = .error .reservedOperation ∧
  decodeBytes [0b01111111#8, 0b11111110#8] = .ok .rdMagnitude ∧
  decodeBytes [0b11111111#8, 0b11111111#8] = .ok .rdAngle ∧
  decodeBytes [0b00000000#8, 0b00000000#8] = .ok .nop ∧
  decodeBytes [0b11000000#8, 0b00000000#8] = .error .notOnTheWire
end

