-- ==== Sys2Proof/Laws/State.lean ====
section
/-! SUPPORT. One lemma per field per named update of State, so that no later proof unfolds a record update. -/

namespace Sys2Proof.Machine

section
variable (s : State)

@[simp] theorem State.issue_csExplicit (c : Call) (q : SeqState) : (s.issue c q).csExplicit = s.csExplicit := rfl
@[simp] theorem State.issue_seq (c : Call) (q : SeqState) : (s.issue c q).seq = q := rfl
@[simp] theorem State.issue_op (c : Call) (q : SeqState) : (s.issue c q).op = s.op := rfl
@[simp] theorem State.issue_rsel (c : Call) (q : SeqState) : (s.issue c q).rsel = s.rsel := rfl
@[simp] theorem State.issue_rxh (c : Call) (q : SeqState) : (s.issue c q).rxh = s.rxh := rfl
@[simp] theorem State.issue_rxl (c : Call) (q : SeqState) : (s.issue c q).rxl = s.rxl := rfl
@[simp] theorem State.issue_requests (c : Call) (q : SeqState) : (s.issue c q).requests = s.requests := rfl
@[simp] theorem State.issue_selectAnswers (c : Call) (q : SeqState) : (s.issue c q).selectAnswers = s.selectAnswers := rfl
@[simp] theorem State.issue_transferAnswers (c : Call) (q : SeqState) : (s.issue c q).transferAnswers = s.transferAnswers := rfl
@[simp] theorem State.issue_history (c : Call) (q : SeqState) : (s.issue c q).history = c.entry :: s.history := rfl
@[simp] theorem State.issue_responses (c : Call) (q : SeqState) : (s.issue c q).responses = s.responses := rfl

@[simp] theorem State.respond_csExplicit (x : Response) : (s.respond x).csExplicit = s.csExplicit := rfl
@[simp] theorem State.respond_seq (x : Response) : (s.respond x).seq = .idle := rfl
@[simp] theorem State.respond_op (x : Response) : (s.respond x).op = s.op := rfl
@[simp] theorem State.respond_rsel (x : Response) : (s.respond x).rsel = s.rsel := rfl
@[simp] theorem State.respond_rxh (x : Response) : (s.respond x).rxh = s.rxh := rfl
@[simp] theorem State.respond_rxl (x : Response) : (s.respond x).rxl = s.rxl := rfl
@[simp] theorem State.respond_requests (x : Response) : (s.respond x).requests = s.requests := rfl
@[simp] theorem State.respond_selectAnswers (x : Response) : (s.respond x).selectAnswers = s.selectAnswers := rfl
@[simp] theorem State.respond_transferAnswers (x : Response) : (s.respond x).transferAnswers = s.transferAnswers := rfl
@[simp] theorem State.respond_history (x : Response) : (s.respond x).history = s.history := rfl
@[simp] theorem State.respond_responses (x : Response) : (s.respond x).responses = x :: s.responses := rfl

@[simp] theorem State.latch_csExplicit (o : OpCode) (r : Sel) : (s.latch o r).csExplicit = s.csExplicit := rfl
@[simp] theorem State.latch_seq (o : OpCode) (r : Sel) : (s.latch o r).seq = s.seq := rfl
@[simp] theorem State.latch_op (o : OpCode) (r : Sel) : (s.latch o r).op = o := rfl
@[simp] theorem State.latch_rsel (o : OpCode) (r : Sel) : (s.latch o r).rsel = r := rfl
@[simp] theorem State.latch_rxh (o : OpCode) (r : Sel) : (s.latch o r).rxh = s.rxh := rfl
@[simp] theorem State.latch_rxl (o : OpCode) (r : Sel) : (s.latch o r).rxl = s.rxl := rfl
@[simp] theorem State.latch_requests (o : OpCode) (r : Sel) : (s.latch o r).requests = s.requests := rfl
@[simp] theorem State.latch_selectAnswers (o : OpCode) (r : Sel) : (s.latch o r).selectAnswers = s.selectAnswers := rfl
@[simp] theorem State.latch_transferAnswers (o : OpCode) (r : Sel) : (s.latch o r).transferAnswers = s.transferAnswers := rfl
@[simp] theorem State.latch_history (o : OpCode) (r : Sel) : (s.latch o r).history = s.history := rfl
@[simp] theorem State.latch_responses (o : OpCode) (r : Sel) : (s.latch o r).responses = s.responses := rfl

@[simp] theorem State.latchReply_csExplicit (i0 i1 : Byte) : (s.latchReply i0 i1).csExplicit = s.csExplicit := rfl
@[simp] theorem State.latchReply_seq (i0 i1 : Byte) : (s.latchReply i0 i1).seq = s.seq := rfl
@[simp] theorem State.latchReply_op (i0 i1 : Byte) : (s.latchReply i0 i1).op = s.op := rfl
@[simp] theorem State.latchReply_rsel (i0 i1 : Byte) : (s.latchReply i0 i1).rsel = s.rsel := rfl
@[simp] theorem State.latchReply_rxh (i0 i1 : Byte) : (s.latchReply i0 i1).rxh = i0 := rfl
@[simp] theorem State.latchReply_rxl (i0 i1 : Byte) : (s.latchReply i0 i1).rxl = i1 := rfl
@[simp] theorem State.latchReply_requests (i0 i1 : Byte) : (s.latchReply i0 i1).requests = s.requests := rfl
@[simp] theorem State.latchReply_selectAnswers (i0 i1 : Byte) : (s.latchReply i0 i1).selectAnswers = s.selectAnswers := rfl
@[simp] theorem State.latchReply_transferAnswers (i0 i1 : Byte) : (s.latchReply i0 i1).transferAnswers = s.transferAnswers := rfl
@[simp] theorem State.latchReply_history (i0 i1 : Byte) : (s.latchReply i0 i1).history = s.history := rfl
@[simp] theorem State.latchReply_responses (i0 i1 : Byte) : (s.latchReply i0 i1).responses = s.responses := rfl

@[simp] theorem State.abort_csExplicit (c : Cause) : (s.abort c).csExplicit = s.csExplicit := rfl
@[simp] theorem State.abort_seq (c : Cause) : (s.abort c).seq = .idle := rfl
@[simp] theorem State.abort_op (c : Cause) : (s.abort c).op = s.op := rfl
@[simp] theorem State.abort_rsel (c : Cause) : (s.abort c).rsel = s.rsel := rfl
@[simp] theorem State.abort_rxh (c : Cause) : (s.abort c).rxh = s.rxh := rfl
@[simp] theorem State.abort_rxl (c : Cause) : (s.abort c).rxl = s.rxl := rfl
@[simp] theorem State.abort_requests (c : Cause) : (s.abort c).requests = s.requests := rfl
@[simp] theorem State.abort_selectAnswers (c : Cause) : (s.abort c).selectAnswers = s.selectAnswers := rfl
@[simp] theorem State.abort_transferAnswers (c : Cause) : (s.abort c).transferAnswers = s.transferAnswers := rfl
@[simp] theorem State.abort_history (c : Cause) : (s.abort c).history = s.history := rfl
@[simp] theorem State.abort_responses (c : Cause) : (s.abort c).responses = .err c :: s.responses := rfl

@[simp] theorem State.takeRequest_csExplicit (rest : List Hreq) : (s.takeRequest rest).csExplicit = s.csExplicit := rfl
@[simp] theorem State.takeRequest_seq (rest : List Hreq) : (s.takeRequest rest).seq = s.seq := rfl
@[simp] theorem State.takeRequest_op (rest : List Hreq) : (s.takeRequest rest).op = s.op := rfl
@[simp] theorem State.takeRequest_rsel (rest : List Hreq) : (s.takeRequest rest).rsel = s.rsel := rfl
@[simp] theorem State.takeRequest_rxh (rest : List Hreq) : (s.takeRequest rest).rxh = s.rxh := rfl
@[simp] theorem State.takeRequest_rxl (rest : List Hreq) : (s.takeRequest rest).rxl = s.rxl := rfl
@[simp] theorem State.takeRequest_requests (rest : List Hreq) : (s.takeRequest rest).requests = rest := rfl
@[simp] theorem State.takeRequest_selectAnswers (rest : List Hreq) : (s.takeRequest rest).selectAnswers = s.selectAnswers := rfl
@[simp] theorem State.takeRequest_transferAnswers (rest : List Hreq) : (s.takeRequest rest).transferAnswers = s.transferAnswers := rfl
@[simp] theorem State.takeRequest_history (rest : List Hreq) : (s.takeRequest rest).history = s.history := rfl
@[simp] theorem State.takeRequest_responses (rest : List Hreq) : (s.takeRequest rest).responses = s.responses := rfl

@[simp] theorem State.takeSelect_csExplicit (a : SelectAnswer) (rest : List SelectAnswer) : (s.takeSelect a rest).csExplicit = s.csExplicit := rfl
@[simp] theorem State.takeSelect_seq (a : SelectAnswer) (rest : List SelectAnswer) : (s.takeSelect a rest).seq = s.seq := rfl
@[simp] theorem State.takeSelect_op (a : SelectAnswer) (rest : List SelectAnswer) : (s.takeSelect a rest).op = s.op := rfl
@[simp] theorem State.takeSelect_rsel (a : SelectAnswer) (rest : List SelectAnswer) : (s.takeSelect a rest).rsel = s.rsel := rfl
@[simp] theorem State.takeSelect_rxh (a : SelectAnswer) (rest : List SelectAnswer) : (s.takeSelect a rest).rxh = s.rxh := rfl
@[simp] theorem State.takeSelect_rxl (a : SelectAnswer) (rest : List SelectAnswer) : (s.takeSelect a rest).rxl = s.rxl := rfl
@[simp] theorem State.takeSelect_requests (a : SelectAnswer) (rest : List SelectAnswer) : (s.takeSelect a rest).requests = s.requests := rfl
@[simp] theorem State.takeSelect_selectAnswers (a : SelectAnswer) (rest : List SelectAnswer) : (s.takeSelect a rest).selectAnswers = rest := rfl
@[simp] theorem State.takeSelect_transferAnswers (a : SelectAnswer) (rest : List SelectAnswer) : (s.takeSelect a rest).transferAnswers = s.transferAnswers := rfl
@[simp] theorem State.takeSelect_history (a : SelectAnswer) (rest : List SelectAnswer) : (s.takeSelect a rest).history = answerSelect a s.history := rfl
@[simp] theorem State.takeSelect_responses (a : SelectAnswer) (rest : List SelectAnswer) : (s.takeSelect a rest).responses = s.responses := rfl

@[simp] theorem State.takeTransfer_csExplicit (a : TransferAnswer) (rest : List TransferAnswer) : (s.takeTransfer a rest).csExplicit = s.csExplicit := rfl
@[simp] theorem State.takeTransfer_seq (a : TransferAnswer) (rest : List TransferAnswer) : (s.takeTransfer a rest).seq = s.seq := rfl
@[simp] theorem State.takeTransfer_op (a : TransferAnswer) (rest : List TransferAnswer) : (s.takeTransfer a rest).op = s.op := rfl
@[simp] theorem State.takeTransfer_rsel (a : TransferAnswer) (rest : List TransferAnswer) : (s.takeTransfer a rest).rsel = s.rsel := rfl
@[simp] theorem State.takeTransfer_rxh (a : TransferAnswer) (rest : List TransferAnswer) : (s.takeTransfer a rest).rxh = s.rxh := rfl
@[simp] theorem State.takeTransfer_rxl (a : TransferAnswer) (rest : List TransferAnswer) : (s.takeTransfer a rest).rxl = s.rxl := rfl
@[simp] theorem State.takeTransfer_requests (a : TransferAnswer) (rest : List TransferAnswer) : (s.takeTransfer a rest).requests = s.requests := rfl
@[simp] theorem State.takeTransfer_selectAnswers (a : TransferAnswer) (rest : List TransferAnswer) : (s.takeTransfer a rest).selectAnswers = s.selectAnswers := rfl
@[simp] theorem State.takeTransfer_transferAnswers (a : TransferAnswer) (rest : List TransferAnswer) : (s.takeTransfer a rest).transferAnswers = rest := rfl
@[simp] theorem State.takeTransfer_history (a : TransferAnswer) (rest : List TransferAnswer) : (s.takeTransfer a rest).history = answerTransfer a s.history := rfl
@[simp] theorem State.takeTransfer_responses (a : TransferAnswer) (rest : List TransferAnswer) : (s.takeTransfer a rest).responses = s.responses := rfl

end

end Sys2Proof.Machine
end

