-- ==== Sys2Proof/Laws/Words.lean ====
section
/-! SUPPORT. Words, bytes, the selector table and the decoder: what each helper computes, said once. -/

namespace Sys2Proof

/-- The two forms of R54 are the same word: shift and OR, and concatenation. -/
theorem wordOf_eq_append (a b : Byte) : wordOf a b = a ++ b := by
  apply BitVec.eq_of_getLsbD_eq
  intro i hi
  simp only [wordOf, BitVec.getLsbD_or, BitVec.getLsbD_shiftLeft, BitVec.getLsbD_setWidth, BitVec.getLsbD_append]
  by_cases h : i < 8
  · simp [h, hi]
  · simp [h, hi, BitVec.getLsbD_of_ge b i (by omega)]
    omega

@[simp] theorem hi8_wordOf (a b : Byte) : hi8 (wordOf a b) = a := by
  rw [wordOf_eq_append]
  exact BitVec.extractLsb'_append_eq_left

@[simp] theorem lo8_wordOf (a b : Byte) : lo8 (wordOf a b) = b := by
  rw [wordOf_eq_append]
  exact BitVec.extractLsb'_append_eq_right

@[simp] theorem wordOf_hi8_lo8 (w : Word) : wordOf (hi8 w) (lo8 w) = w := by
  rw [wordOf_eq_append]
  apply BitVec.eq_of_getLsbD_eq
  intro i hi
  simp only [hi8, lo8, BitVec.getLsbD_append, BitVec.getLsbD_extractLsb']
  by_cases h : i < 8
  · simp [h]
  · have h8 : i - 8 < 8 := by omega
    have h16 : 8 + (i - 8) = i := by omega
    simp [h, h8, h16]

@[simp] theorem hreqOp_packHreq (o : OpCode) (r : Sel) : hreqOp (packHreq o r) = o := by
  revert o r; decide

@[simp] theorem hreqSel_packHreq (o : OpCode) (r : Sel) : hreqSel (packHreq o r) = r := by
  revert o r; decide

@[simp] theorem packHreq_hreqOp_hreqSel (w : Hreq) : packHreq (hreqOp w) (hreqSel w) = w := by
  revert w; decide

theorem withSelector_ok {mk : Sel → Instr} {r : Sel} {i : Instr} :
    withSelector mk r = .ok i ↔ r ≠ 7#3 ∧ i = mk r := by
  unfold withSelector
  split
  · next h => simp [h]
  · next h => simp [h, eq_comm]

/-- Everything the host decoder accepts: the request word fixes the operation code and the selector field. -/
theorem decodeHreq_ok {w : Hreq} {i : Instr} (h : decodeHreq w = .ok i) :
    (hreqOp w = 0#3 ∧ hreqSel w ≠ 7#3 ∧ i = .encode (hreqSel w)) ∨
    (hreqOp w = 1#3 ∧ hreqSel w ≠ 7#3 ∧ i = .execute (hreqSel w)) ∨
    (hreqOp w = 2#3 ∧ hreqSel w ≠ 7#3 ∧ i = .readU16 (hreqSel w)) ∨
    (hreqOp w = 3#3 ∧ i = .diagGain (hreqSel w)) ∨
    (hreqOp w = 4#3 ∧ i = .magnitude (hreqSel w)) ∨
    (hreqOp w = 5#3 ∧ i = .angle (hreqSel w)) := by
  unfold decodeHreq at h
  split at h <;> simp_all [withSelector_ok]

end Sys2Proof

namespace Sys2Proof.Machine

@[simp] theorem commandWord_0 : commandWord 0#3 = some 0x4001#16 := by decide
@[simp] theorem commandWord_1 : commandWord 1#3 = some 0xC003#16 := by decide
@[simp] theorem commandWord_2 : commandWord 2#3 = some 0x4016#16 := by decide
@[simp] theorem commandWord_3 : commandWord 3#3 = some 0xC017#16 := by decide
@[simp] theorem commandWord_4 : commandWord 4#3 = some 0x7FFD#16 := by decide
@[simp] theorem commandWord_5 : commandWord 5#3 = some 0x7FFE#16 := by decide
@[simp] theorem commandWord_6 : commandWord 6#3 = some 0xFFFF#16 := by decide
@[simp] theorem commandWord_7 : commandWord 7#3 = none := by decide

/-- Every selector but 7 has a command word (R22). -/
theorem commandWord_eq_none_iff (r : Sel) : commandWord r = none ↔ r = 7#3 := by
  revert r; decide

theorem exists_commandWord {r : Sel} (h : r ≠ 7#3) : ∃ w, commandWord r = some w :=
  Option.ne_none_iff_exists'.mp fun hn => h ((commandWord_eq_none_iff r).mp hn)

@[simp] theorem exchangeOf_nopWord : exchangeOf nopWord = .transfer 0#8 0#8 := by decide

/-- `RES` gives data for the reading operations and for no other latch content (R149). -/
theorem completionData_isSome (o : OpCode) (b0 b1 : Byte) :
    (completionData o b0 b1).isSome = (1#3 ≤ o && o ≤ 5#3) := by
  have h : ∀ o : OpCode, o = 0#3 ∨ o = 1#3 ∨ o = 2#3 ∨ o = 3#3 ∨ o = 4#3 ∨ o = 5#3 ∨ o = 6#3 ∨ o = 7#3 := by
    decide
  rcases h o with rfl | rfl | rfl | rfl | rfl | rfl | rfl | rfl <;> rfl

end Sys2Proof.Machine
end

