-- ==== Sys2Proof/Laws/Ops.lean ====
section
/-! SUPPORT. One lemma per shared operation that says everything it can do; later proofs cite these and do not unfold. -/

namespace Sys2Proof.Machine

variable {s t : State}

/-- A reading request, in every state and for every selector. -/
theorem acceptRead_cases (o : OpCode) (r : Sel) (s : State) :
    (s.seq ≠ .idle ∧ acceptRead o r s = .next s) ∨
    (s.seq = .idle ∧ r = 7#3 ∧ acceptRead o r s = .next (s.respond .illegal)) ∨
    (∃ w, s.seq = .idle ∧ commandWord r = some w ∧ s.csExplicit = true ∧
      acceptRead o r s = .next ((s.latch o r).issue .csLow .aSel)) ∨
    (∃ w, s.seq = .idle ∧ commandWord r = some w ∧ s.csExplicit = false ∧
      acceptRead o r s = .next ((s.latch o r).issue (exchangeOf w) .aXfer)) := by
  unfold acceptRead
  by_cases hi : s.seq = .idle
  · cases hw : commandWord r with
    | none => simp [hi, (commandWord_eq_none_iff r).mp hw]
    | some w => cases hx : s.csExplicit <;> simp [hi]
  · simp [hi]

/-- `ENCODE`, in every state and for every selector. -/
theorem execEncode_cases (r : Sel) (s : State) :
    (s.seq ≠ .idle ∧ execEncode r s = .next s) ∨
    (s.seq = .idle ∧ r = 7#3 ∧ execEncode r s = .next (s.respond .illegal)) ∨
    (∃ w, s.seq = .idle ∧ commandWord r = some w ∧
      execEncode r s = .next ((s.latch 0#3 r).respond (.ok w))) := by
  unfold execEncode
  by_cases hi : s.seq = .idle
  · cases hw : commandWord r with
    | none => simp [hi, (commandWord_eq_none_iff r).mp hw]
    | some w => simp [hi]
  · simp [hi]

theorem commandTurn_iff : s.commandTurn = true ↔ s.seq = .aSel ∨ (s.seq = .idle ∧ s.csExplicit = false) := by
  simp [State.commandTurn]

theorem nopTurn_iff : s.nopTurn = true ↔ s.seq = .bSel ∨ (s.seq = .aXfer ∧ s.csExplicit = false) := by
  simp [State.nopTurn]

theorem sendCommand_of_turn {r : Sel} {w : Word} (ht : s.commandTurn = true) (hr : s.rsel = r)
    (hw : commandWord r = some w) : sendCommand r s = .next (s.issue (exchangeOf w) .aXfer) := by
  simp [sendCommand, ht, hr, hw]

theorem sendCommand_out_of_turn {r : Sel} (h : ¬ (s.commandTurn = true ∧ s.rsel = r)) :
    sendCommand r s = .refused .wireWordOutOfTurn := by
  unfold sendCommand
  rw [if_neg]
  simpa using h

theorem sendNop_of_turn (ht : s.nopTurn = true) : sendNop s = .next (s.issue (exchangeOf nopWord) .bXfer) := by
  simp [sendNop, ht]

theorem sendNop_out_of_turn (ht : s.nopTurn = false) : sendNop s = .refused .wireWordOutOfTurn := by
  simp [sendNop, ht]

theorem complete_of_data {b0 b1 : Byte} {d : Word} (h : completionData s.op b0 b1 = some d) :
    complete b0 b1 s = .next (s.respond (.ok d)) := by
  simp [complete, h]

/-- The sequencer's command word, fetched and run at its turn, is the exchange of Transaction A. -/
theorem runWireWord_command (ht : s.commandTurn = true) {w : Word} (hw : commandWord s.rsel = some w) :
    runWireWord (commandWord s.rsel) s = .next (s.issue (exchangeOf w) .aXfer) := by
  have h : ∀ r : Sel, r = 0#3 ∨ r = 1#3 ∨ r = 2#3 ∨ r = 3#3 ∨ r = 4#3 ∨ r = 5#3 ∨ r = 6#3 ∨ r = 7#3 := by decide
  have hk := fun r => sendCommand_of_turn (r := r) (w := w) ht
  rcases h s.rsel with hr | hr | hr | hr | hr | hr | hr | hr
  all_goals
    rw [hr] at hw
    first
    | (have := hk _ hr hw
       simp only [commandWord_0, commandWord_1, commandWord_2, commandWord_3, commandWord_4, commandWord_5,
         commandWord_6, Option.some.injEq] at hw
       subst hw
       rw [hr]
       exact this)
    | simp at hw

theorem runWireWord_none : runWireWord none s = .fault .noCommandWord := rfl

/-- The no-op, fetched and run at its turn, is the exchange of Transaction B. -/
theorem runWireWord_nop (ht : s.nopTurn = true) :
    runWireWord (some nopWord) s = .next (s.issue (exchangeOf nopWord) .bXfer) :=
  sendNop_of_turn ht

end Sys2Proof.Machine
end

