-- ==== Sys2Proof/Laws/PerInstr.lean ====
section
/-! SUPPORT. Statements about every instruction as syntax, one lemma per constructor. `Length`: one byte for a host
request, two bytes for a wire word (30_encoding.md R95). -/

namespace Sys2Proof.Laws.Length

/-- R95: "one length of word, 16 bits, at the wire level, and one length of request, 6 bits, at the host level": the
encoding is a byte with bits 7:6 clear, or two bytes. -/
def Statement (i : Instr) : Prop :=
  (∃ b : Byte, encode i = [b] ∧ b.extractLsb' 6 2 = 0#2) ∨ (∃ b0 b1 : Byte, encode i = [b0, b1])

theorem hreqByte_top (o : OpCode) (r : Sel) : (hreqByte o r).extractLsb' 6 2 = 0#2 := by
  revert o r; decide

theorem encode (r : Sel) : Statement (.encode r) := .inl ⟨_, rfl, hreqByte_top _ _⟩
theorem execute (r : Sel) : Statement (.execute r) := .inl ⟨_, rfl, hreqByte_top _ _⟩
theorem readU16 (r : Sel) : Statement (.readU16 r) := .inl ⟨_, rfl, hreqByte_top _ _⟩
theorem diagGain (r : Sel) : Statement (.diagGain r) := .inl ⟨_, rfl, hreqByte_top _ _⟩
theorem magnitude (r : Sel) : Statement (.magnitude r) := .inl ⟨_, rfl, hreqByte_top _ _⟩
theorem angle (r : Sel) : Statement (.angle r) := .inl ⟨_, rfl, hreqByte_top _ _⟩
theorem rdClearErrorFlag : Statement .rdClearErrorFlag := .inr ⟨_, _, rfl⟩
theorem rdProgrammingControl : Statement .rdProgrammingControl := .inr ⟨_, _, rfl⟩
theorem rdOtpZeroPosHigh : Statement .rdOtpZeroPosHigh := .inr ⟨_, _, rfl⟩
theorem rdOtpZeroPosLow : Statement .rdOtpZeroPosLow := .inr ⟨_, _, rfl⟩
theorem rdDiagAgc : Statement .rdDiagAgc := .inr ⟨_, _, rfl⟩
theorem rdMagnitude : Statement .rdMagnitude := .inr ⟨_, _, rfl⟩
theorem rdAngle : Statement .rdAngle := .inr ⟨_, _, rfl⟩
theorem nop : Statement .nop := .inr ⟨_, _, rfl⟩

end Sys2Proof.Laws.Length
end

