-- ==== Sys2Proof/Laws/Run.lean ====
section
/-! SUPPORT. Runs of several steps, and the step at each state of the sequencer. -/

namespace Sys2Proof.Machine

variable {s t : State}

@[simp] theorem run_zero : run 0 s = .next s := rfl

theorem run_succ_of_next {n : Nat} (h : step s = .next t) : run (n + 1) s = run n t := by
  simp [run, h]

theorem run_succ_of_fault {n : Nat} {r : Fault} (h : step s = .fault r) : run (n + 1) s = .fault r := by
  simp [run, h]

theorem run_succ_of_refused {n : Nat} {r : Refusal} (h : step s = .refused r) : run (n + 1) s = .refused r := by
  simp [run, h]

/-- `run` is the host's own run of the core. -/
theorem core_run_eq (n : Nat) (s : State) : Host.Core.run core n s = run n s := by
  induction n generalizing s with
  | zero => rfl
  | succ n ih =>
    cases h : step s with
    | next t =>
      rw [run_succ_of_next h, ← ih t]
      simp only [Host.Core.run]
      rw [show core.step s = .next t from h]
    | fault r =>
      rw [run_succ_of_fault h]
      simp only [Host.Core.run]
      rw [show core.step s = .fault r from h]
      rfl
    | refused r =>
      rw [run_succ_of_refused h]
      simp only [Host.Core.run]
      rw [show core.step s = .refused r from h]
      rfl

/-- A run cut in two. -/
theorem run_add {m n : Nat} (h : run m s = .next t) : run (m + n) s = run n t := by
  induction m generalizing s with
  | zero => cases h; simp
  | succ m ih =>
    rw [show m + 1 + n = (m + n) + 1 by omega]
    cases hs : step s with
    | next u =>
      rw [run_succ_of_next hs] at h ⊢
      exact ih h
    | fault r => rw [run_succ_of_fault hs] at h; cases h
    | refused r => rw [run_succ_of_refused hs] at h; cases h

theorem step_idle_waiting (hq : s.seq = .idle) (h : s.requests = []) : step s = .next s := by
  simp [step, sequenceStep, awaitRequest, hq, h]

theorem step_idle (hq : s.seq = .idle) {w : Hreq} {rest : List Hreq} (h : s.requests = w :: rest) :
    step s = rowRequest w (s.takeRequest rest) := by
  simp [step, sequenceStep, awaitRequest, hq, h]

theorem step_aSel (hq : s.seq = .aSel) {a : SelectAnswer} {rest : List SelectAnswer}
    (h : s.selectAnswers = a :: rest) : step s = rowASel a (s.takeSelect a rest) := by
  simp [step, sequenceStep, awaitSelect, hq, h]

theorem step_aXfer (hq : s.seq = .aXfer) {a : TransferAnswer} {rest : List TransferAnswer}
    (h : s.transferAnswers = a :: rest) : step s = rowAXfer a (s.takeTransfer a rest) := by
  simp [step, sequenceStep, awaitTransfer, hq, h]

theorem step_aDes (hq : s.seq = .aDes) {a : SelectAnswer} {rest : List SelectAnswer}
    (h : s.selectAnswers = a :: rest) : step s = rowADes a (s.takeSelect a rest) := by
  simp [step, sequenceStep, awaitSelect, hq, h]

theorem step_bSel (hq : s.seq = .bSel) {a : SelectAnswer} {rest : List SelectAnswer}
    (h : s.selectAnswers = a :: rest) : step s = rowBSel a (s.takeSelect a rest) := by
  simp [step, sequenceStep, awaitSelect, hq, h]

theorem step_bXfer (hq : s.seq = .bXfer) {a : TransferAnswer} {rest : List TransferAnswer}
    (h : s.transferAnswers = a :: rest) : step s = rowBXfer a (s.takeTransfer a rest) := by
  simp [step, sequenceStep, awaitTransfer, hq, h]

theorem step_bDes (hq : s.seq = .bDes) {a : SelectAnswer} {rest : List SelectAnswer}
    (h : s.selectAnswers = a :: rest) : step s = rowBDes a (s.takeSelect a rest) := by
  simp [step, sequenceStep, awaitSelect, hq, h]

/-- What a step can be: a wait, a stop, or the row of its state on the input event that was there. -/
theorem step_cases (s : State) :
    (s.starved = true ∧ step s = .next s) ∨
    (s.seq = .reserved ∧ step s = .fault .seqReserved) ∨
    (∃ w rest, s.seq = .idle ∧ s.requests = w :: rest ∧ step s = rowRequest w (s.takeRequest rest)) ∨
    (∃ a rest, s.seq = .aSel ∧ s.selectAnswers = a :: rest ∧ step s = rowASel a (s.takeSelect a rest)) ∨
    (∃ a rest, s.seq = .aXfer ∧ s.transferAnswers = a :: rest ∧ step s = rowAXfer a (s.takeTransfer a rest)) ∨
    (∃ a rest, s.seq = .aDes ∧ s.selectAnswers = a :: rest ∧ step s = rowADes a (s.takeSelect a rest)) ∨
    (∃ a rest, s.seq = .bSel ∧ s.selectAnswers = a :: rest ∧ step s = rowBSel a (s.takeSelect a rest)) ∨
    (∃ a rest, s.seq = .bXfer ∧ s.transferAnswers = a :: rest ∧ step s = rowBXfer a (s.takeTransfer a rest)) ∨
    (∃ a rest, s.seq = .bDes ∧ s.selectAnswers = a :: rest ∧ step s = rowBDes a (s.takeSelect a rest)) := by
  cases hq : s.seq with
  | reserved => simp [step, sequenceStep, State.starved, hq]
  | idle =>
    cases h : s.requests with
    | nil => exact .inl ⟨by simp [State.starved, hq, h], step_idle_waiting hq h⟩
    | cons w rest => simp [step_idle hq h]
  | aSel =>
    cases h : s.selectAnswers with
    | nil => simp [State.starved, step, sequenceStep, awaitSelect, hq, h]
    | cons a rest => simp [step_aSel hq h]
  | aXfer =>
    cases h : s.transferAnswers with
    | nil => simp [State.starved, step, sequenceStep, awaitTransfer, hq, h]
    | cons a rest => simp [step_aXfer hq h]
  | aDes =>
    cases h : s.selectAnswers with
    | nil => simp [State.starved, step, sequenceStep, awaitSelect, hq, h]
    | cons a rest => simp [step_aDes hq h]
  | bSel =>
    cases h : s.selectAnswers with
    | nil => simp [State.starved, step, sequenceStep, awaitSelect, hq, h]
    | cons a rest => simp [step_bSel hq h]
  | bXfer =>
    cases h : s.transferAnswers with
    | nil => simp [State.starved, step, sequenceStep, awaitTransfer, hq, h]
    | cons a rest => simp [step_bXfer hq h]
  | bDes =>
    cases h : s.selectAnswers with
    | nil => simp [State.starved, step, sequenceStep, awaitSelect, hq, h]
    | cons a rest => simp [step_bDes hq h]

end Sys2Proof.Machine
end

