-- ==== Sys2Proof/Laws/Step.lean ====
section
/-! SUPPORT. Everything a step can do, said once: the rows of 41_transaction.md R147 as a relation, with the next state
written over the named operations, and the inversion lemma that every invariant is proved from. -/

namespace Sys2Proof.Machine

variable {s t : State}

theorem ReadRequest.exec {i : Instr} {o : OpCode} {r : Sel} (h : ReadRequest i o r) (s : State) :
    exec i s = acceptRead o r s := by
  rcases h with ⟨rfl, rfl, -⟩ | ⟨rfl, rfl, -⟩ | ⟨⟨x, rfl⟩, rfl, rfl⟩ | ⟨⟨x, rfl⟩, rfl, rfl⟩ | ⟨⟨x, rfl⟩, rfl, rfl⟩ <;> rfl

theorem ReadRequest.readLatches {i : Instr} {o : OpCode} {r : Sel} (h : ReadRequest i o r) :
    readLatches o r = true := by
  rcases h with ⟨_, rfl, h⟩ | ⟨_, rfl, h⟩ | ⟨_, rfl, rfl⟩ | ⟨_, rfl, rfl⟩ | ⟨_, rfl, rfl⟩ <;>
    simp [Machine.readLatches, *]

theorem ne_seven_of_readLatches {o : OpCode} {r : Sel} (h : readLatches o r = true) : r ≠ 7#3 := by
  revert o r; decide

/-- A reading operation has data for every reply. -/
theorem exists_completionData {o : OpCode} {r : Sel} (h : readLatches o r = true) (b0 b1 : Byte) :
    ∃ d, completionData o b0 b1 = some d := by
  apply Option.isSome_iff_exists.mp
  rw [completionData_isSome]
  revert o r; decide

/-- The decoder reads `ENCODE` of a register or a reading operation, and nothing else. -/
theorem decodeHreq_classes {w : Hreq} {i : Instr} (h : decodeHreq w = .ok i) :
    (∃ r, r ≠ 7#3 ∧ i = .encode r) ∨ ∃ o r, ReadRequest i o r := by
  rcases decodeHreq_ok h with ⟨-, h7, rfl⟩ | ⟨-, h7, rfl⟩ | ⟨-, h7, rfl⟩ | ⟨-, rfl⟩ | ⟨-, rfl⟩ | ⟨-, rfl⟩
  · exact .inl ⟨_, h7, rfl⟩
  · exact .inr ⟨_, _, .inl ⟨rfl, rfl, h7⟩⟩
  · exact .inr ⟨_, _, .inr (.inl ⟨rfl, rfl, h7⟩)⟩
  · exact .inr ⟨_, _, .inr (.inr (.inl ⟨⟨_, rfl⟩, rfl, rfl⟩))⟩
  · exact .inr ⟨_, _, .inr (.inr (.inr (.inl ⟨⟨_, rfl⟩, rfl, rfl⟩)))⟩
  · exact .inr ⟨_, _, .inr (.inr (.inr (.inr ⟨⟨_, rfl⟩, rfl, rfl⟩)))⟩

/-- The rows of R147. -/
inductive Row (s : State) : State → Prop where
  | wait (h : s.starved = true) : Row s s
  | refuse (w : Hreq) (rest : List Hreq) (e : DecodeError) (hq : s.seq = .idle) (hr : s.requests = w :: rest)
      (hd : decodeHreq w = .error e) : Row s ((s.takeRequest rest).respond .illegal)
  | encode (w : Hreq) (rest : List Hreq) (r : Sel) (cmd : Word) (hq : s.seq = .idle) (hr : s.requests = w :: rest)
      (hd : decodeHreq w = .ok (.encode r)) (hc : commandWord r = some cmd) :
      Row s (((s.takeRequest rest).latch 0#3 r).respond (.ok cmd))
  | startExplicit (w : Hreq) (rest : List Hreq) (i : Instr) (o : OpCode) (r : Sel) (cmd : Word) (hq : s.seq = .idle)
      (hr : s.requests = w :: rest) (hd : decodeHreq w = .ok i) (hi : ReadRequest i o r)
      (hc : commandWord r = some cmd) (hx : s.csExplicit = true) :
      Row s (((s.takeRequest rest).latch o r).issue .csLow .aSel)
  | startImplicit (w : Hreq) (rest : List Hreq) (i : Instr) (o : OpCode) (r : Sel) (cmd : Word) (hq : s.seq = .idle)
      (hr : s.requests = w :: rest) (hd : decodeHreq w = .ok i) (hi : ReadRequest i o r)
      (hc : commandWord r = some cmd) (hx : s.csExplicit = false) :
      Row s (((s.takeRequest rest).latch o r).issue (exchangeOf cmd) .aXfer)
  | command (rest : List SelectAnswer) (cmd : Word) (hq : s.seq = .aSel) (hr : s.selectAnswers = .ok :: rest)
      (hc : commandWord s.rsel = some cmd) : Row s ((s.takeSelect .ok rest).issue (exchangeOf cmd) .aXfer)
  | failSelect (e : ChipSelectError) (rest : List SelectAnswer)
      (hq : s.seq = .aSel ∨ s.seq = .aDes ∨ s.seq = .bSel ∨ s.seq = .bDes) (hr : s.selectAnswers = .err e :: rest) :
      Row s ((s.takeSelect (.err e) rest).abort (.chipSelect e))
  | closeA (i0 i1 : Byte) (rest : List TransferAnswer) (hq : s.seq = .aXfer)
      (hr : s.transferAnswers = .ok i0 i1 :: rest) (hx : s.csExplicit = true) :
      Row s ((s.takeTransfer (.ok i0 i1) rest).issue .csHigh .aDes)
  | nopImplicit (i0 i1 : Byte) (rest : List TransferAnswer) (hq : s.seq = .aXfer)
      (hr : s.transferAnswers = .ok i0 i1 :: rest) (hx : s.csExplicit = false) :
      Row s ((s.takeTransfer (.ok i0 i1) rest).issue (exchangeOf nopWord) .bXfer)
  | failTransfer (e : TransportError) (rest : List TransferAnswer) (hq : s.seq = .aXfer ∨ s.seq = .bXfer)
      (hr : s.transferAnswers = .err e :: rest) : Row s ((s.takeTransfer (.err e) rest).abort (.transport e))
  | openB (rest : List SelectAnswer) (hq : s.seq = .aDes) (hr : s.selectAnswers = .ok :: rest) :
      Row s ((s.takeSelect .ok rest).issue .csLow .bSel)
  | nopExplicit (rest : List SelectAnswer) (hq : s.seq = .bSel) (hr : s.selectAnswers = .ok :: rest) :
      Row s ((s.takeSelect .ok rest).issue (exchangeOf nopWord) .bXfer)
  | closeB (i0 i1 : Byte) (rest : List TransferAnswer) (hq : s.seq = .bXfer)
      (hr : s.transferAnswers = .ok i0 i1 :: rest) (hx : s.csExplicit = true) :
      Row s (((s.takeTransfer (.ok i0 i1) rest).latchReply i0 i1).issue .csHigh .bDes)
  | finishImplicit (i0 i1 : Byte) (rest : List TransferAnswer) (d : Word) (hq : s.seq = .bXfer)
      (hr : s.transferAnswers = .ok i0 i1 :: rest) (hx : s.csExplicit = false)
      (hd : completionData s.op i0 i1 = some d) :
      Row s (((s.takeTransfer (.ok i0 i1) rest).latchReply i0 i1).respond (.ok d))
  | finishExplicit (rest : List SelectAnswer) (d : Word) (hq : s.seq = .bDes) (hr : s.selectAnswers = .ok :: rest)
      (hd : completionData s.op s.rxh s.rxl = some d) : Row s ((s.takeSelect .ok rest).respond (.ok d))

/-- The request row, inverted. -/
theorem row_of_rowRequest {w : Hreq} {rest : List Hreq} (hq : s.seq = .idle) (hr : s.requests = w :: rest)
    (h : rowRequest w (s.takeRequest rest) = .next t) : Row s t := by
  unfold rowRequest at h
  cases hd : decodeHreq w with
  | error e =>
    rw [hd] at h
    cases h
    exact .refuse w rest e hq hr hd
  | ok i =>
    rw [hd] at h
    rcases decodeHreq_classes hd with ⟨r, h7, rfl⟩ | ⟨o, r, hi⟩
    · rcases execEncode_cases r (s.takeRequest rest) with ⟨hn, -⟩ | ⟨-, h7', -⟩ | ⟨cmd, -, hc, he⟩
      · exact absurd hq hn
      · exact absurd h7' h7
      · cases he.symm.trans h
        exact .encode w rest r cmd hq hr hd hc
    · simp only [hi.exec] at h
      rcases acceptRead_cases o r (s.takeRequest rest) with ⟨hn, -⟩ | ⟨-, h7, -⟩ | ⟨cmd, -, hc, hx, he⟩ |
        ⟨cmd, -, hc, hx, he⟩
      · exact absurd hq hn
      · exact absurd h7 (ne_seven_of_readLatches hi.readLatches)
      · cases he.symm.trans h
        exact .startExplicit w rest i o r cmd hq hr hd hi hc hx
      · cases he.symm.trans h
        exact .startImplicit w rest i o r cmd hq hr hd hi hc hx

/-- A step that answers a next state is one of the rows. -/
theorem row_of_step (h : step s = .next t) : Row s t := by
  rcases step_cases s with ⟨hs, e⟩ | ⟨-, e⟩ | ⟨w, rest, hq, hr, e⟩ | ⟨a, rest, hq, hr, e⟩ | ⟨a, rest, hq, hr, e⟩ |
    ⟨a, rest, hq, hr, e⟩ | ⟨a, rest, hq, hr, e⟩ | ⟨a, rest, hq, hr, e⟩ | ⟨a, rest, hq, hr, e⟩ <;> rw [e] at h
  · cases h; exact .wait hs
  · cases h
  · exact row_of_rowRequest hq hr h
  · cases a with
    | err err => cases h; exact .failSelect err rest (.inl hq) hr
    | ok =>
      simp only [rowASel] at h
      cases hc : commandWord s.rsel with
      | none => simp [hc, runWireWord] at h
      | some cmd =>
        rw [runWireWord_command (by simp [commandTurn_iff, hq]) (by simpa using hc)] at h
        cases h
        exact .command rest cmd hq hr hc
  · cases a with
    | err err => cases h; exact .failTransfer err rest (.inl hq) hr
    | ok i0 i1 =>
      simp only [rowAXfer] at h
      split at h
      · next hx => cases h; exact .closeA i0 i1 rest hq hr hx
      · next hx =>
        have hx : s.csExplicit = false := by simpa using hx
        rw [runWireWord_nop (by simp [nopTurn_iff, hq, hx])] at h
        cases h
        exact .nopImplicit i0 i1 rest hq hr hx
  · cases a with
    | err err => cases h; exact .failSelect err rest (.inr (.inl hq)) hr
    | ok => cases h; exact .openB rest hq hr
  · cases a with
    | err err => cases h; exact .failSelect err rest (.inr (.inr (.inl hq))) hr
    | ok =>
      simp only [rowBSel] at h
      rw [runWireWord_nop (by simp [nopTurn_iff, hq])] at h
      cases h
      exact .nopExplicit rest hq hr
  · cases a with
    | err err => cases h; exact .failTransfer err rest (.inr hq) hr
    | ok i0 i1 =>
      simp only [rowBXfer] at h
      split at h
      · next hx => cases h; exact .closeB i0 i1 rest hq hr hx
      · next hx =>
        have hx : s.csExplicit = false := by simpa using hx
        cases hd : completionData s.op i0 i1 with
        | none => simp [complete, hd] at h
        | some d =>
          rw [complete_of_data (by simpa using hd)] at h
          cases h
          exact .finishImplicit i0 i1 rest d hq hr hx hd
  · cases a with
    | err err => cases h; exact .failSelect err rest (.inr (.inr (.inr hq))) hr
    | ok =>
      simp only [rowBDes, State.takeSelect_rxh, State.takeSelect_rxl] at h
      cases hd : completionData s.op s.rxh s.rxl with
      | none => simp [complete, hd] at h
      | some d =>
        rw [complete_of_data (by simpa using hd)] at h
        cases h
        exact .finishExplicit rest d hq hr hd

end Sys2Proof.Machine
end

