-- ==== Sys2Proof/Tests/Slice0.lean ====
section
/-! SUPPORT. Tests, with expected results from spec/ (the rule is named at each), and for every statement with
hypotheses a witness that meets them. -/

namespace Sys2Proof.Tests

open Sys2Proof Sys2Proof.Machine

/-! States for the tests -/

/-- The calls of a read of `Angle` that waits in `q` (41_transaction.md R143, R144). -/
def callsUpTo (x : Bool) : SeqState → List Entry
  | .idle | .reserved => []
  | .aSel => [.csLow none]
  | .aXfer => .transfer 0xFF#8 0xFF#8 none :: (if x then [.csLow (some .ok)] else [])
  | .aDes => [.csHigh none, .transfer 0xFF#8 0xFF#8 (some (.ok 0xAA#8 0xBB#8)), .csLow (some .ok)]
  | .bSel => [.csLow none, .csHigh (some .ok), .transfer 0xFF#8 0xFF#8 (some (.ok 0xAA#8 0xBB#8)), .csLow (some .ok)]
  | .bXfer => .transfer 0#8 0#8 none :: (if x then [.csLow (some .ok), .csHigh (some .ok)] else []) ++
      .transfer 0xFF#8 0xFF#8 (some (.ok 0xAA#8 0xBB#8)) :: (if x then [.csLow (some .ok)] else [])
  | .bDes => [.csHigh none, .transfer 0#8 0#8 (some (.ok 0x12#8 0x34#8)), .csLow (some .ok), .csHigh (some .ok),
      .transfer 0xFF#8 0xFF#8 (some (.ok 0xAA#8 0xBB#8)), .csLow (some .ok)]

/-- A PE in `q`, in the middle of `EXECUTE Angle` unless it is idle, with the inputs given. -/
def inState (x : Bool) (q : SeqState) (reqs : List Hreq) (sa : List SelectAnswer) (ta : List TransferAnswer) : State :=
  { State.construct x with
    seq := q, op := 1#3, rsel := 6#3, rxh := 0x12#8, rxl := 0x34#8, requests := reqs, selectAnswers := sa,
    transferAnswers := ta, history := callsUpTo x q }

variable (reqs : List Hreq) (sa : List SelectAnswer) (ta : List TransferAnswer)

theorem explicit_engineInv (q : SeqState) (h : q ≠ .reserved) : EngineInv (inState true q reqs sa ta) := by
  cases q <;> first | exact absurd rfl h | exact ⟨h, fun _ => rfl, fun h => Bool.noConfusion h, rfl⟩

theorem explicit_lineInv (q : SeqState) : LineInv (inState true q reqs sa ta) := by
  cases q <;> constructor <;> simp [inState, callsUpTo, selectLevel]

theorem implicit_engineInv (q : SeqState) (h : q = .idle ∨ q = .aXfer ∨ q = .bXfer) :
    EngineInv (inState false q reqs sa ta) := by
  rcases h with rfl | rfl | rfl <;> exact ⟨by simp [inState], fun _ => rfl, fun _ => by simp [inState], rfl⟩

/-! WellFormed: an ill-formed term for each check (30_encoding.md R92) -/

theorem test_wf_encode_seven : (Instr.encode 7#3).wf = false := by decide
theorem test_wf_execute_seven : (Instr.execute 7#3).wf = false := by decide
theorem test_wf_readU16_seven : (Instr.readU16 7#3).wf = false := by decide
theorem test_wf_ignored_field : (Instr.diagGain 7#3).wf && (Instr.magnitude 7#3).wf && (Instr.angle 7#3).wf := by decide

/-! Decoding: one word per row of the opcode table, written out from 30_encoding.md R88, R89 -/

theorem test_decode_encode : decodeTableWord 6 0b000_110 = some (.encode 6#3) := by decide
theorem test_decode_execute : decodeTableWord 6 0b001_101 = some (.execute 5#3) := by decide
theorem test_decode_readU16 : decodeTableWord 6 0b010_000 = some (.readU16 0#3) := by decide
theorem test_decode_diagGain : decodeTableWord 6 0b011_000 = some (.diagGain 0#3) := by decide
theorem test_decode_magnitude : decodeTableWord 6 0b100_111 = some (.magnitude 7#3) := by decide
theorem test_decode_angle : decodeTableWord 6 0b101_001 = some (.angle 1#3) := by decide
theorem test_decode_reserved_operation : decodeBytes [0b00110000#8] = .error .reservedOperation := by decide
theorem test_decode_reserved_selector : decodeBytes [0b00010111#8] = .error .reservedSelector := by decide
theorem test_decode_not_six_bits : decodeBytes [0b01000000#8] = .error .notSixBits := by decide
theorem test_decode_no_length : decodeBytes [] = .error .wrongLength := by decide
theorem test_decode_rdClearErrorFlag : decodeTableWord 16 0b0100000000000001 = some .rdClearErrorFlag := by decide
theorem test_decode_rdProgrammingControl : decodeTableWord 16 0b1100000000000011 = some .rdProgrammingControl := by decide
theorem test_decode_rdOtpZeroPosHigh : decodeTableWord 16 0b0100000000010110 = some .rdOtpZeroPosHigh := by decide
theorem test_decode_rdOtpZeroPosLow : decodeTableWord 16 0b1100000000010111 = some .rdOtpZeroPosLow := by decide
theorem test_decode_rdDiagAgc : decodeTableWord 16 0b0111111111111101 = some .rdDiagAgc := by decide
theorem test_decode_rdMagnitude : decodeTableWord 16 0b0111111111111110 = some .rdMagnitude := by decide
theorem test_decode_rdAngle : decodeTableWord 16 0b1111111111111111 = some .rdAngle := by decide
theorem test_decode_nop : decodeTableWord 16 0b0000000000000000 = some .nop := by decide
/-- R88: "or `0xFFFE`" is the wrong one of the document's pair for `Magnitude`. -/
theorem test_decode_wrong_parity : decodeTableWord 16 0xFFFE = none := by decide

/-! The encoder and the decoders: the examples and corner cases of R112, R172, R173, R175 -/

theorem test_enc_zero : encodeAddress 0x0000#14 = 0xC000#16 := by decide
theorem test_enc_balanced : encodeAddress 0x1555#14 = 0x5555#16 := by decide
theorem test_res_readU16 : completionData 2#3 0x80#8 0x05#8 = some 0x0005#16 := by decide
theorem test_res_diagGain : completionData 3#3 0xF3#8 0x55#8 = some 0x0355#16 := by decide
theorem test_res_magnitude : completionData 4#3 0x12#8 0x34#8 = some 0x1234#16 := by decide
theorem test_res_angle : completionData 5#3 0xFF#8 0xFF#8 = some 0x3FFF#16 := by decide

/-! Placing a word and stepping once, from reset -/

/-- The step after placing the word: the response given and the call made, if any. -/
def firstStep (nbits w : Nat) : Option (Option Response × Option Entry) :=
  (nextState (step (State.reset.withFetchWord nbits w))).map fun t => (t.responses.head?, t.history.head?)

/-- R113: "`ENCODE Angle` responds `Ok(0xFFFF)`". -/
theorem test_step_encode : firstStep 6 0x06 = some (some (.ok 0xFFFF#16), none) := by decide
/-- R92: 0x07 is illegal. -/
theorem test_step_illegal : firstStep 6 0x07 = some (some .illegal, none) := by decide
theorem test_step_execute : firstStep 6 0x0D = some (none, some (.csLow none)) := by decide
theorem test_step_readU16 : firstStep 6 0x10 = some (none, some (.csLow none)) := by decide
theorem test_step_diagGain : firstStep 6 0x1F = some (none, some (.csLow none)) := by decide
theorem test_step_magnitude : firstStep 6 0x20 = some (none, some (.csLow none)) := by decide
theorem test_step_angle : firstStep 6 0x28 = some (none, some (.csLow none)) := by decide
theorem test_step_rdClearErrorFlag : firstStep 16 0x4001 = some (none, some (.transfer 0x40#8 0x01#8 none)) := by decide
theorem test_step_rdProgrammingControl : firstStep 16 0xC003 = some (none, some (.transfer 0xC0#8 0x03#8 none)) := by
  decide
theorem test_step_rdOtpZeroPosHigh : firstStep 16 0x4016 = some (none, some (.transfer 0x40#8 0x16#8 none)) := by decide
theorem test_step_rdOtpZeroPosLow : firstStep 16 0xC017 = some (none, some (.transfer 0xC0#8 0x17#8 none)) := by decide
theorem test_step_rdDiagAgc : firstStep 16 0x7FFD = some (none, some (.transfer 0x7F#8 0xFD#8 none)) := by decide
theorem test_step_rdMagnitude : firstStep 16 0x7FFE = some (none, some (.transfer 0x7F#8 0xFE#8 none)) := by decide
theorem test_step_rdAngle : firstStep 16 0xFFFF = some (none, some (.transfer 0xFF#8 0xFF#8 none)) := by decide
theorem test_step_nop : firstStep 16 0x0000 = some (none, some (.transfer 0x00#8 0x00#8 none)) := by decide

/-- R148: `DIAG_GAIN` latches selector 4 whatever its field holds. -/
theorem test_diagGain_latches_four :
    (nextState (exec (.diagGain 7#3) (State.construct false))).map State.rsel = some 4#3 := by decide
/-- R144: with chip-select in the transport, `ANGLE` begins with the exchange `FF FF`. -/
theorem test_angle_implicit :
    (nextState (exec (.angle 0#3) (State.construct false))).map State.history =
      some [.transfer 0xFF#8 0xFF#8 none] := by decide
/-- Row T13 with R172's example: the reply `80 05` completes `READ_U16` with 0x0005. -/
theorem test_complete_readU16 :
    (nextState (step { inState true .bDes [] [.ok] [] with op := 2#3, rxh := 0x80#8, rxl := 0x05#8 })).map
      State.responses = some [.ok 0x0005#16] := by decide
/-- Row T11b with R140's example: the reply `12 34` completes `EXECUTE` with 0x1234. -/
theorem test_complete_execute :
    (nextState (step (inState false .bXfer [] [] [.ok 0x12#8 0x34#8]))).map State.responses =
      some [.ok 0x1234#16] := by decide
/-- R208: the transport's error is the response, and no further call is made. -/
theorem test_abort :
    (nextState (step (inState true .aXfer [] [] [.err ⟨5⟩]))).map (fun t => (t.responses, t.history.length)) =
      some ([.err (.transport ⟨5⟩)], 2) := by decide

/-! Text (R96) -/

theorem test_parse_readU16 : parseLine ["READ_U16", "Angle"] = some (.readU16 6#3) := by decide
theorem test_parse_missing_operand : parseLine ["ENCODE"] = none := by decide

/-- R96: blanks and a comment. -/
theorem test_parse_program :
    parseProgram ["; one read".toList, "READ_U16  5  ; Magnitude".toList] = some [.readU16 5#3] := by decide
theorem test_parse_script :
    parseScript ["L -> Ok".toList, "T -> AA bb".toList] = some [.l, .t 0xAA#8 0xBB#8] := by decide
theorem test_parse_script_error :
    parseScriptLine ["H", "->", "Err(x)"] = some (.hErr ⟨errorToken ['x']⟩) := by decide

/-! Witnesses: for each statement with hypotheses, states and operands that meet them together, clause by clause and at
the ends of the ranges -/

/-- The two errors used below. -/
def busError : TransportError := ⟨1⟩
def selectError : ChipSelectError := ⟨2⟩

/-- `s` waits in `q` and the answer `a` is there. -/
def selectThere (s : State) (q : SeqState) (a : SelectAnswer) : Bool := s.seq == q && s.selectAnswers == [a]

/-- The same for an exchange. -/
def transferThere (s : State) (q : SeqState) (a : TransferAnswer) : Bool := s.seq == q && s.transferAnswers == [a]

/-- `s` is idle and the request `w` is there. -/
def requestThere (s : State) (w : Hreq) : Bool := s.seq == .idle && s.requests == [w]

/-- A state outside the runs: the latches of no reading operation. -/
def withLatches (s : State) (op : OpCode) (r : Sel) : State := { s with op := op, rsel := r }

theorem read_execute : ReadRequest (.execute 6#3) 1#3 6#3 := .inl ⟨rfl, rfl, by decide⟩
theorem read_readU16 : ReadRequest (.readU16 0#3) 2#3 0#3 := .inr (.inl ⟨rfl, rfl, by decide⟩)
theorem read_diagGain : ReadRequest (.diagGain 7#3) 3#3 4#3 := .inr (.inr (.inl ⟨⟨_, rfl⟩, rfl, rfl⟩))
theorem read_magnitude : ReadRequest (.magnitude 0#3) 4#3 5#3 := .inr (.inr (.inr (.inl ⟨⟨_, rfl⟩, rfl, rfl⟩)))
theorem read_angle : ReadRequest (.angle 7#3) 5#3 6#3 := .inr (.inr (.inr (.inr ⟨⟨_, rfl⟩, rfl, rfl⟩)))

theorem witness_EveryStepCompletesAndKeepsInvariant :
    EngineInv (State.construct true) ∧ EngineInv (inState true .bDes [0x2F#6] [.ok] []) ∧
    EngineInv (inState false .bXfer [] [] [.err busError]) :=
  ⟨⟨by decide, fun h => absurd rfl h, fun h => Bool.noConfusion h, rfl⟩,
   explicit_engineInv _ _ _ _ (by decide), implicit_engineInv _ _ _ _ (by decide)⟩

theorem witness_SelectLineFollowsTransactions :
    EngineInv (inState true .aDes [] [.ok] []) ∧ LineInv (inState true .aDes [] [.ok] []) ∧
    ∃ t, step (inState true .aDes [] [.ok] []) = .next t :=
  ⟨explicit_engineInv _ _ _ _ (by decide), explicit_lineInv _ _ _ _, _, rfl⟩

theorem witness_SelectLineAfterOperation :
    (LineInv (inState true .aXfer [] [] [.err busError]) ∧ LineInv (inState true .bXfer [] [] [.err busError])) ∧
    (EngineInv (inState true .aSel [] [.err selectError] []) ∧ EngineInv (inState true .bDes [] [.err selectError] [])) ∧
    EngineInv (inState true .bDes [] [.ok] []) :=
  ⟨⟨explicit_lineInv _ _ _ _, explicit_lineInv _ _ _ _⟩,
   ⟨explicit_engineInv _ _ _ _ (by decide), explicit_engineInv _ _ _ _ (by decide)⟩,
   explicit_engineInv _ _ _ _ (by decide)⟩

theorem witness_StopsInUnreachableStates :
    (inState true .reserved [] [] []).seq = .reserved ∧
    (selectThere (withLatches (inState true .aSel [] [.ok] []) 1#3 7#3) .aSel .ok = true ∧
      (withLatches (inState true .aSel [] [.ok] []) 1#3 7#3).rsel = 7#3) ∧
    (selectThere (withLatches (inState true .bDes [] [.ok] []) 0#3 6#3) .bDes .ok = true ∧
      (withLatches (inState true .bDes [] [.ok] []) 0#3 6#3).op = 0#3 ∧
      (withLatches (inState true .bDes [] [.ok] []) 7#3 6#3).op = 7#3) ∧
    (transferThere (withLatches (inState false .bXfer [] [] [.ok 0#8 0#8]) 6#3 6#3) .bXfer (.ok 0#8 0#8) = true ∧
      (withLatches (inState false .bXfer [] [] [.ok 0#8 0#8]) 6#3 6#3).csExplicit = false ∧
      (withLatches (inState false .bXfer [] [] [.ok 0#8 0#8]) 6#3 6#3).op = 6#3) := by decide

theorem witness_StepRunsDecodedRequest :
    (requestThere (inState true .idle [0x06#6] [] []) 0x06#6 = true ∧ decodeHreq 0x06#6 = .ok (.encode 6#3)) ∧
    (requestThere (inState false .idle [0x2F#6] [] []) 0x2F#6 = true ∧ decodeHreq 0x2F#6 = .ok (.angle 7#3)) :=
  ⟨⟨by decide, rfl⟩, by decide, rfl⟩

theorem witness_StepRunsDecodedWireWord :
    (selectThere (inState true .aSel [] [.ok] []) .aSel .ok = true ∧
      commandWord (inState true .aSel [] [.ok] []).rsel = some 0xFFFF#16 ∧ decodeWire 0xFFFF#16 = .ok .rdAngle) ∧
    selectThere (inState true .bSel [] [.ok] []) .bSel .ok = true ∧
    (transferThere (inState false .aXfer [] [] [.ok 1#8 2#8]) .aXfer (.ok 1#8 2#8) = true ∧
      (inState false .aXfer [] [] [.ok 1#8 2#8]).csExplicit = false) :=
  ⟨⟨by decide, by decide, rfl⟩, by decide, by decide⟩

theorem witness_IllegalRequestsAreRefused :
    (requestThere (inState true .idle [0x07#6] [] []) 0x07#6 = true ∧ illegalRequest 0x07#6 = true) ∧
    (requestThere (inState false .idle [0x3F#6] [] []) 0x3F#6 = true ∧ illegalRequest 0x3F#6 = true) ∧
    illegalRequest 0x17#6 = true ∧ illegalRequest 0x30#6 = true ∧ illegalRequest 0x2F#6 = false := by decide

theorem witness_OnlyIdleEngineTakesRequests :
    (ReadRequest (.execute 6#3) 1#3 6#3 ∧ ReadRequest (.readU16 0#3) 2#3 0#3 ∧ ReadRequest (.diagGain 7#3) 3#3 4#3 ∧
      ReadRequest (.magnitude 0#3) 4#3 5#3 ∧ ReadRequest (.angle 7#3) 5#3 6#3) ∧
    ((State.construct true).seq = .idle ∧ (State.construct true).csExplicit = true) ∧
    ((State.construct false).seq = .idle ∧ (State.construct false).csExplicit = false) ∧
    (6#3 : Sel) ≠ 7#3 ∧ (inState true .bDes [0x06#6] [.ok] []).seq ≠ .idle ∧
    (requestThere (inState true .idle [0x3F#6] [] []) 0x3F#6 = true ∧ illegalRequest 0x3F#6 = true) :=
  ⟨⟨read_execute, read_readU16, read_diagGain, read_magnitude, read_angle⟩, ⟨rfl, rfl⟩, ⟨rfl, rfl⟩, by decide,
   by decide, by decide⟩

theorem witness_SetParityIsIdempotentAndEven :
    ((0x7FFF#16).getLsbD 15 = false ∧ (0x7FFE#16).getLsbD 15 = false ∧ (fold16 0x7FFE#16).f1 = 0#1) ∧
    (0x8000#16).getLsbD 15 = true := by decide

theorem witness_CommandWordProperties : encodeAddress 0x3FFF#14 = encodeAddress (BitVec.ofNat 14 16383) := by decide

theorem witness_OnlyEightWordsGoOut :
    (∃ t, step (inState true .bSel [] [.ok] []) = .next t) ∧ WireInv (State.construct true).history ∧
    decodeWire 0x4001#16 = .ok .rdClearErrorFlag ∧ (0x0000#16 : Word) ∈ wireWords :=
  ⟨⟨_, rfl⟩, fun _ _ _ h => absurd h (List.not_mem_nil), rfl, by decide⟩

theorem witness_EncodeRespondsCommandWord :
    (State.construct false).seq = .idle ∧ addrOf 0#3 = some 0x0001#14 ∧ addrOf 6#3 = some 0x3FFF#14 ∧
    (6#3 : Sel) ≠ 7#3 := by decide

theorem witness_CommandWordsAreSent :
    (inState true .aSel [] [] []).seq = .aSel ∧
    ((State.construct false).seq = .idle ∧ (State.construct false).csExplicit = false) ∧
    (withLatches (inState true .aSel [] [] []) 1#3 0#3).rsel = 0#3 ∧
    (withLatches (inState true .aSel [] [] []) 1#3 1#3).rsel = 1#3 ∧
    (withLatches (inState true .aSel [] [] []) 1#3 2#3).rsel = 2#3 ∧
    (withLatches (inState true .aSel [] [] []) 1#3 3#3).rsel = 3#3 ∧
    (withLatches (inState true .aSel [] [] []) 3#3 4#3).rsel = 4#3 ∧
    (withLatches (inState true .aSel [] [] []) 4#3 5#3).rsel = 5#3 ∧
    (inState true .aSel [] [] []).rsel = 6#3 := by decide

theorem witness_NoOpIsSent :
    (inState true .bSel [] [] []).seq = .bSel ∧
    ((inState false .aXfer [] [] []).seq = .aXfer ∧ (inState false .aXfer [] [] []).csExplicit = false) := by decide

theorem witness_WireWordsOutOfTurnAreRefused :
    ((inState true .aSel [] [] []).rsel ≠ 0#3 ∧ (inState true .aSel [] [] []).rsel ≠ 5#3) ∧
    ¬ ((inState true .idle [] [] []).seq = .aSel ∨
      ((inState true .idle [] [] []).seq = .idle ∧ (inState true .idle [] [] []).csExplicit = false)) ∧
    ¬ ((inState true .aXfer [] [] []).seq = .bSel ∨
      ((inState true .aXfer [] [] []).seq = .aXfer ∧ (inState true .aXfer [] [] []).csExplicit = false)) := by decide

theorem witness_SequencerTable_idle :
    (requestThere (inState true .idle [0x3F#6] [] []) 0x3F#6 = true ∧ illegalRequest 0x3F#6 = true) ∧
    (requestThere (inState true .idle [0x06#6] [] []) 0x06#6 = true ∧ hreqOp 0x06#6 = 0#3 ∧ hreqSel 0x06#6 ≠ 7#3) ∧
    (requestThere (inState true .idle [0x0E#6] [] []) 0x0E#6 = true ∧ decodeHreq 0x0E#6 = .ok (.execute 6#3) ∧
      ReadRequest (.execute 6#3) 1#3 6#3) ∧
    (requestThere (inState false .idle [0x2F#6] [] []) 0x2F#6 = true ∧ decodeHreq 0x2F#6 = .ok (.angle 7#3) ∧
      ReadRequest (.angle 7#3) 5#3 6#3) :=
  ⟨by decide, by decide, ⟨by decide, rfl, read_execute⟩, by decide, rfl, read_angle⟩

theorem witness_SequencerTable_waiting :
    (selectThere (inState true .aSel [] [.ok] []) .aSel .ok = true ∧
      commandWord (inState true .aSel [] [.ok] []).rsel = some 0xFFFF#16) ∧
    (selectThere (inState true .aSel [] [.err selectError] []) .aSel (.err selectError) = true ∧
      selectThere (inState true .bDes [] [.err selectError] []) .bDes (.err selectError) = true) ∧
    (transferThere (inState true .aXfer [] [] [.ok 0#8 0xFF#8]) .aXfer (.ok 0#8 0xFF#8) = true ∧
      transferThere (inState false .aXfer [] [] [.ok 0#8 0xFF#8]) .aXfer (.ok 0#8 0xFF#8) = true) ∧
    transferThere (inState true .bXfer [] [] [.err busError]) .bXfer (.err busError) = true ∧
    (selectThere (inState true .aDes [] [.ok] []) .aDes .ok = true ∧
      selectThere (inState true .bSel [] [.ok] []) .bSel .ok = true) ∧
    (transferThere (inState true .bXfer [] [] [.ok 0#8 0#8]) .bXfer (.ok 0#8 0#8) = true ∧
      transferThere (inState false .bXfer [] [] [.ok 0xFF#8 0xFF#8]) .bXfer (.ok 0xFF#8 0xFF#8) = true ∧
      completionData (inState false .bXfer [] [] [.ok 0xFF#8 0xFF#8]).op 0xFF#8 0xFF#8 = some 0xFFFF#16) ∧
    (selectThere (inState true .bDes [] [.ok] []) .bDes .ok = true ∧
      completionData (inState true .bDes [] [.ok] []).op 0x12#8 0x34#8 = some 0x1234#16) ∧
    ((inState true .idle [] [] []).starved = true ∧ (inState true .aXfer [] [] []).starved = true ∧
      (inState true .bDes [] [] []).starved = true) := by decide

theorem witness_AbortOnFirstFailure :
    (EngineInv (inState true .aXfer [] [] [.err busError]) ∧ EngineInv (inState false .bXfer [] [] [.err busError]) ∧
      LineInv (inState true .aXfer [] [] [.err busError])) ∧
    (EngineInv (inState true .aSel [] [.err selectError] []) ∧ EngineInv (inState true .bSel [] [.err selectError] [])) ∧
    (EngineInv (inState true .aDes [] [.err selectError] []) ∧ EngineInv (inState true .bDes [] [.err selectError] [])) :=
  ⟨⟨explicit_engineInv _ _ _ _ (by decide), implicit_engineInv _ _ _ _ (by decide), explicit_lineInv _ _ _ _⟩,
   ⟨explicit_engineInv _ _ _ _ (by decide), explicit_engineInv _ _ _ _ (by decide)⟩,
   explicit_engineInv _ _ _ _ (by decide), explicit_engineInv _ _ _ _ (by decide)⟩

theorem witness_UnansweredCallWaitsForever :
    (inState true .bXfer [0x06#6] [.ok] []).seq ≠ .idle ∧ (inState true .bXfer [0x06#6] [.ok] []).starved = true := by
  decide

theorem witness_SequencerAgreesWithProcedure :
    (inState true .idle [0x0E#6] [] []).seq = .idle ∧ (inState true .idle [0x0E#6] [] []).requests = [0x0E#6] ∧
    decodeHreq 0x0E#6 = .ok (.execute 6#3) ∧ ReadRequest (.execute 6#3) 1#3 6#3 := ⟨rfl, rfl, rfl, read_execute⟩

theorem witness_ExecuteReturnsSecondReply :
    ((inState false .idle [packHreq 1#3 6#3] [] []).seq = .idle ∧ addrOf 6#3 = some 0x3FFF#14) ∧
    (inState true .idle [packHreq 1#3 7#3] [] []).requests = [packHreq 1#3 7#3] := by decide

theorem witness_ReadU16ReturnsPayload :
    ((inState false .idle [packHreq 2#3 0#3] [] []).seq = .idle ∧ addrOf 0#3 = some 0x0001#14) ∧
    (inState true .idle [packHreq 2#3 7#3] [] []).requests = [packHreq 2#3 7#3] := by decide

theorem witness_DiagGainReturnsNibbleAndByte :
    (inState true .idle [packHreq 3#3 7#3] [] []).seq = .idle ∧
    (inState true .idle [packHreq 3#3 7#3] [] []).requests = [packHreq 3#3 7#3] := by decide

theorem witness_MagnitudeReturnsPayload :
    (inState true .idle [packHreq 4#3 0#3] [] []).seq = .idle ∧
    (inState true .idle [packHreq 4#3 0#3] [] []).requests = [packHreq 4#3 0#3] := by decide

theorem witness_AngleReturnsPayload :
    (inState false .idle [packHreq 5#3 7#3] [] []).seq = .idle ∧
    (inState false .idle [packHreq 5#3 7#3] [] []).requests = [packHreq 5#3 7#3] := by decide

theorem witness_EveryReadCompletes :
    decodeHreq 0x2F#6 = .ok (.angle 7#3) ∧ ReadRequest (.angle 7#3) 5#3 6#3 ∧ commandWord 6#3 = some 0xFFFF#16 ∧
    completionData 5#3 0xFF#8 0xFF#8 = some 0x3FFF#16 ∧
    ((inState true .idle [0x2F#6] [.ok, .ok, .ok, .ok] [.ok 0#8 0#8, .ok 0xFF#8 0xFF#8]).csExplicit = true ∧
      (inState true .idle [0x2F#6] [.ok, .ok, .ok, .ok] [.ok 0#8 0#8, .ok 0xFF#8 0xFF#8]).selectAnswers =
        [.ok, .ok, .ok, .ok]) ∧
    ((inState false .idle [0x2F#6] [] [.ok 0#8 0#8, .ok 0xFF#8 0xFF#8]).csExplicit = false ∧
      (inState false .idle [0x2F#6] [] [.ok 0#8 0#8, .ok 0xFF#8 0xFF#8]).transferAnswers =
        [.ok 0#8 0#8, .ok 0xFF#8 0xFF#8]) :=
  ⟨rfl, read_angle, by decide, by decide, ⟨rfl, rfl⟩, rfl, rfl⟩

theorem witness_PseudoOperationsExpand : (inState true .idle [] [.ok] []).seq = .idle := rfl

theorem witness_FirstReplyIsDiscarded :
    (requestThere (inState false .idle [0x2F#6] [] []) 0x2F#6 = true ∧ decodeHreq 0x2F#6 = .ok (.angle 7#3) ∧
      ReadRequest (.angle 7#3) 5#3 6#3 ∧ commandWord 6#3 = some 0xFFFF#16) ∧
    (selectThere (inState true .aSel [] [.ok] []) .aSel .ok = true ∧
      commandWord (inState true .aSel [] [.ok] []).rsel = some 0xFFFF#16) ∧
    (inState true .aXfer [] [.ok] []).seq = .aXfer := ⟨⟨by decide, rfl, read_angle, by decide⟩, by decide, rfl⟩

theorem witness_PayloadIsLowFourteenBits : (0x3F#8).extractLsb' 0 6 = (0xFF#8).extractLsb' 0 6 := by decide

theorem witness_StatusBitsAreNeverRead :
    (withLatches (inState true .bXfer [] [.ok] []) 2#3 6#3).seq = .bXfer ∧
    (withLatches (inState true .bXfer [] [.ok] []) 2#3 6#3).op ≠ 1#3 ∧
    (0x3F#8).extractLsb' 0 6 = (0xFF#8).extractLsb' 0 6 := by decide

theorem witness_ResponseFormat :
    addrOf 6#3 = some 0x3FFF#14 ∧
    (inState false .bXfer [] [] [.err busError]).csExplicit = false ∧
    ∃ t, step (inState false .bXfer [] [] [.err busError]) = .next t := ⟨rfl, rfl, _, rfl⟩

theorem witness_NothingSurvivesAnOperation :
    (inState true .idle [0x0E#6] [.ok] []).seq = .idle ∧
    (withLatches (inState true .idle [0x0E#6] [.ok] []) 5#3 0#3).seq = .idle ∧
    (inState true .idle [0x0E#6] [.ok] []).requests = (withLatches (inState true .idle [0x0E#6] [.ok] []) 5#3 0#3).requests ∧
    inState true .idle [0x0E#6] [.ok] [] ≠ withLatches (inState true .idle [0x0E#6] [.ok] []) 5#3 0#3 := by decide

theorem witness_OneInputOneOutput :
    (∃ t, step (inState true .aXfer [] [] []) = .next t) ∧ (∃ t, step (inState true .aXfer [] [] [.ok 0#8 0#8]) = .next t) ∧
    ∃ t, step (inState true .bDes [] [.ok] []) = .next t := ⟨⟨_, rfl⟩, ⟨_, rfl⟩, _, rfl⟩

theorem witness_InstructionFrame :
    (∃ t, exec (.angle 7#3) (inState true .idle [] [] []) = .next t) ∧
    (∃ t, exec (.encode 6#3) (inState true .idle [] [] []) = .next t) ∧
    (∃ t, exec .rdAngle (inState true .aSel [] [] []) = .next t) ∧
    ∃ t, exec .nop (inState true .bSel [] [] []) = .next t := ⟨⟨_, rfl⟩, ⟨_, rfl⟩, ⟨_, rfl⟩, _, rfl⟩

theorem witness_StrapNeverChanges : ∃ t, run 1 (inState true .aDes [] [.ok] []) = .next t := ⟨_, rfl⟩

theorem witness_ImplicitVariantMakesNoSelectCall :
    (State.construct false).csExplicit = false ∧ (State.construct false).seq = .idle ∧ NoSelect (State.construct false) ∧
    ∃ t, run 1 { State.construct false with requests := [0x0E#6] } = .next t :=
  ⟨rfl, rfl, ⟨fun _ h => absurd h (List.not_mem_nil), fun _ h => absurd h (List.not_mem_nil)⟩, _, rfl⟩

/-- `READ_U16 Magnitude` answered by a sensor that follows R60, with the document's reply `12 34`. -/
def pipelinedStart : State :=
  { State.construct false with requests := [0x15#6], transferAnswers := [.ok 0xAA#8 0xBB#8, .ok 0x12#8 0x34#8] }

theorem witness_PipelinedReplyAnswersCommand :
    pipelinedStart.seq = .idle ∧ pipelinedStart.requests = [0x15#6] ∧ decodeHreq 0x15#6 = .ok (.readU16 5#3) ∧
    ReadRequest (.readU16 5#3) 2#3 5#3 ∧ commandWord 5#3 = some 0x7FFE#16 ∧
    ∃ t, run 7 pipelinedStart = .next t ∧ t.responses = [.ok 0x1234#16] ∧
      Pipelined (fun w f => w = 0x7FFE#16 ∧ f = 0x1234#16) (exchanges t.history) :=
  ⟨rfl, rfl, rfl, .inr (.inl ⟨rfl, rfl, by decide⟩), by decide, _, rfl, by decide, ⟨by decide, by decide⟩, trivial⟩

theorem witness_DecodeOfEncode : (Instr.encode 6#3).wf = true ∧ (Instr.angle 7#3).wf = true ∧ Instr.nop.wf = true := by
  decide

theorem witness_EncodeOfDecode :
    decodeBytes [0x2F#8] = .ok (.angle 7#3) ∧ decodeBytes [0xFF#8, 0xFF#8] = .ok .rdAngle := ⟨rfl, rfl⟩

end Sys2Proof.Tests
end

namespace Sys2Proof.Machine

/-! Input and output events of a step (00_scope.md R7, 20_memory.md R62): every row of R147 takes one input event and
then makes one call or gives one response. `InputTaken` is the point between the two halves. -/

section
variable {s t u : State}

@[simp] theorem Entry.call_entry (c : Call) : c.entry.call = c := by cases c <;> rfl

/-- Recording an answer leaves the calls made as they are (R66). -/
@[simp] theorem map_call_answerSelect (a : SelectAnswer) (h : List Entry) :
    (answerSelect a h).map Entry.call = h.map Entry.call := by
  unfold answerSelect
  split <;> simp [Entry.call]

@[simp] theorem map_call_answerTransfer (a : TransferAnswer) (h : List Entry) :
    (answerTransfer a h).map Entry.call = h.map Entry.call := by
  unfold answerTransfer
  split <;> simp [Entry.call]

/-- `u` is `s` with the input event its state waits for consumed, and no output event given yet. -/
structure InputTaken (s u : State) : Prop where
  starved : s.starved = false
  inputs : u.inputCount + 1 = s.inputCount
  calls : u.history.map Entry.call = s.history.map Entry.call
  responses : u.responses = s.responses

theorem inputTaken_takeRequest {w : Hreq} {rest : List Hreq} (hq : s.seq = .idle) (hr : s.requests = w :: rest) :
    InputTaken s (s.takeRequest rest) where
  starved := by simp [State.starved, hq, hr]
  inputs := by simp [State.inputCount, hr]; omega
  calls := rfl
  responses := rfl

theorem inputTaken_takeSelect {a : SelectAnswer} {rest : List SelectAnswer}
    (hq : s.seq = .aSel ∨ s.seq = .aDes ∨ s.seq = .bSel ∨ s.seq = .bDes) (hr : s.selectAnswers = a :: rest) :
    InputTaken s (s.takeSelect a rest) where
  starved := by rcases hq with hq | hq | hq | hq <;> simp [State.starved, hq, hr]
  inputs := by simp [State.inputCount, hr]; omega
  calls := by simp
  responses := rfl

theorem inputTaken_takeTransfer {a : TransferAnswer} {rest : List TransferAnswer}
    (hq : s.seq = .aXfer ∨ s.seq = .bXfer) (hr : s.transferAnswers = a :: rest) :
    InputTaken s (s.takeTransfer a rest) where
  starved := by rcases hq with hq | hq <;> simp [State.starved, hq, hr]
  inputs := by simp [State.inputCount, hr]; omega
  calls := by simp
  responses := rfl

theorem InputTaken.latch (h : InputTaken s u) (o : OpCode) (r : Sel) : InputTaken s (u.latch o r) :=
  ⟨h.starved, h.inputs, h.calls, h.responses⟩

theorem InputTaken.latchReply (h : InputTaken s u) (i0 i1 : Byte) : InputTaken s (u.latchReply i0 i1) :=
  ⟨h.starved, h.inputs, h.calls, h.responses⟩

/-- From `s` to `t` one input event was consumed and one output event given: a call, or a response that ends the
operation. -/
def OneEventEach (s t : State) : Prop :=
  s.starved = false ∧ t.inputCount + 1 = s.inputCount ∧
    ((∃ c, t.history.map Entry.call = c :: s.history.map Entry.call ∧ t.responses = s.responses) ∨
     (∃ x, t.responses = x :: s.responses ∧ t.history.map Entry.call = s.history.map Entry.call ∧ t.seq = .idle))

theorem InputTaken.issue (h : InputTaken s u) (c : Call) (q : SeqState) : OneEventEach s (u.issue c q) :=
  ⟨h.starved, h.inputs, .inl ⟨c, by simp [h.calls], h.responses⟩⟩

theorem InputTaken.respond (h : InputTaken s u) (x : Response) : OneEventEach s (u.respond x) :=
  ⟨h.starved, h.inputs, .inr ⟨x, by simp [h.responses], h.calls, rfl⟩⟩

/-- An abort gives its `Err` response and nothing else (60_exceptions.md R208). -/
theorem InputTaken.abort (h : InputTaken s u) (c : Cause) : OneEventEach s (u.abort c) := h.respond (.err c)

/-- Every row but the wait consumes one input event and gives one output event. -/
theorem Row.wait_or_oneEventEach (h : Row s t) : (s.starved = true ∧ t = s) ∨ OneEventEach s t := by
  cases h with
  | wait hs => exact .inl ⟨hs, rfl⟩
  | refuse w rest e hq hr => exact .inr ((inputTaken_takeRequest hq hr).respond _)
  | encode w rest r cmd hq hr => exact .inr (((inputTaken_takeRequest hq hr).latch _ _).respond _)
  | startExplicit w rest i o r cmd hq hr => exact .inr (((inputTaken_takeRequest hq hr).latch _ _).issue _ _)
  | startImplicit w rest i o r cmd hq hr => exact .inr (((inputTaken_takeRequest hq hr).latch _ _).issue _ _)
  | command rest cmd hq hr => exact .inr ((inputTaken_takeSelect (.inl hq) hr).issue _ _)
  | failSelect e rest hq hr => exact .inr ((inputTaken_takeSelect hq hr).abort _)
  | closeA i0 i1 rest hq hr => exact .inr ((inputTaken_takeTransfer (.inl hq) hr).issue _ _)
  | nopImplicit i0 i1 rest hq hr => exact .inr ((inputTaken_takeTransfer (.inl hq) hr).issue _ _)
  | failTransfer e rest hq hr => exact .inr ((inputTaken_takeTransfer hq hr).abort _)
  | openB rest hq hr => exact .inr ((inputTaken_takeSelect (.inr (.inl hq)) hr).issue _ _)
  | nopExplicit rest hq hr => exact .inr ((inputTaken_takeSelect (.inr (.inr (.inl hq))) hr).issue _ _)
  | closeB i0 i1 rest hq hr =>
    exact .inr (((inputTaken_takeTransfer (.inr hq) hr).latchReply _ _).issue _ _)
  | finishImplicit i0 i1 rest d hq hr =>
    exact .inr (((inputTaken_takeTransfer (.inr hq) hr).latchReply _ _).respond _)
  | finishExplicit rest d hq hr => exact .inr ((inputTaken_takeSelect (.inr (.inr (.inr hq))) hr).respond _)

end

/-- Settles O40: a step that answers is a row of R147, and each row waits, or takes one input and gives one output. -/
theorem oneInputOneOutput : Obligations.OneInputOneOutput :=
  fun _ _ h => (row_of_step h).wait_or_oneEventEach

end Sys2Proof.Machine

namespace Sys2Proof.Machine

/-! The rows of R147 and the step are the same relation: a row is a step, and an engine whose latches fit its state has
a row for every input. -/

section
variable {s t : State}

/-- Each row of R147 is the step of the machine; with `row_of_step`, the rows are exactly the steps that answer. -/
theorem step_of_row (h : Row s t) : step s = .next t := by
  cases h with
  | wait hs =>
    rcases step_cases s with ⟨-, e⟩ | ⟨hq, -⟩ | ⟨_, _, hq, hr, -⟩ | ⟨_, _, hq, hr, -⟩ | ⟨_, _, hq, hr, -⟩ |
      ⟨_, _, hq, hr, -⟩ | ⟨_, _, hq, hr, -⟩ | ⟨_, _, hq, hr, -⟩ | ⟨_, _, hq, hr, -⟩
    · exact e
    · simp [State.starved, hq] at hs
    all_goals simp [State.starved, hq, hr] at hs
  | refuse w rest e hq hr hd => simp [step_idle hq hr, rowRequest, hd]
  | encode w rest r cmd hq hr hd hc => simp [step_idle hq hr, rowRequest, hd, exec, execEncode, hq, hc]
  | startExplicit w rest i o r cmd hq hr hd hi hc hx =>
    simp [step_idle hq hr, rowRequest, hd, hi.exec, acceptRead, hq, hc, hx]
  | startImplicit w rest i o r cmd hq hr hd hi hc hx =>
    simp [step_idle hq hr, rowRequest, hd, hi.exec, acceptRead, hq, hc, hx]
  | command rest cmd hq hr hc =>
    rw [step_aSel hq hr, rowASel, runWireWord_command (by simp [commandTurn_iff, hq]) (by simpa using hc)]
  | failSelect e rest hq hr =>
    rcases hq with hq | hq | hq | hq
    · rw [step_aSel hq hr, rowASel]
    · rw [step_aDes hq hr, rowADes]
    · rw [step_bSel hq hr, rowBSel]
    · rw [step_bDes hq hr, rowBDes]
  | closeA i0 i1 rest hq hr hx => simp [step_aXfer hq hr, rowAXfer, hx]
  | nopImplicit i0 i1 rest hq hr hx =>
    simp [step_aXfer hq hr, rowAXfer, hx, runWireWord_nop, nopTurn_iff, hq]
  | failTransfer e rest hq hr =>
    rcases hq with hq | hq
    · rw [step_aXfer hq hr, rowAXfer]
    · rw [step_bXfer hq hr, rowBXfer]
  | openB rest hq hr => rw [step_aDes hq hr, rowADes]
  | nopExplicit rest hq hr => rw [step_bSel hq hr, rowBSel, runWireWord_nop (by simp [nopTurn_iff, hq])]
  | closeB i0 i1 rest hq hr hx => simp [step_bXfer hq hr, rowBXfer, hx]
  | finishImplicit i0 i1 rest d hq hr hx hd => simp [step_bXfer hq hr, rowBXfer, hx, complete, hd]
  | finishExplicit rest d hq hr hd => simp [step_bDes hq hr, rowBDes, complete, hd]

/-- `EngineInv` without its clause on the history: what a step needs in order not to stop. -/
structure SequencerInv (s : State) : Prop where
  seqNamed : s.seq ≠ .reserved
  reading : s.seq ≠ .idle → readLatches s.op s.rsel = true
  implicitSelect : s.csExplicit = false → s.seq = .idle ∨ s.seq = .aXfer ∨ s.seq = .bXfer

theorem EngineInv.sequencerInv (h : EngineInv s) : SequencerInv s := ⟨h.seqNamed, h.reading, h.implicitSelect⟩

theorem SequencerInv.engineInv (h : SequencerInv s) (hm : s.historyMatches = true) : EngineInv s :=
  ⟨h.seqNamed, h.reading, h.implicitSelect, hm⟩

theorem sequencerInv_of_idle (hq : s.seq = .idle) : SequencerInv s where
  seqNamed := by simp [hq]
  reading := by simp [hq]
  implicitSelect _ := .inl hq

/-- An idle engine has a row for every request (R148). -/
theorem exists_row_of_request {w : Hreq} {rest : List Hreq} (hq : s.seq = .idle) (hr : s.requests = w :: rest) :
    ∃ t, Row s t := by
  cases hd : decodeHreq w with
  | error e => exact ⟨_, .refuse w rest e hq hr hd⟩
  | ok i =>
    rcases decodeHreq_classes hd with ⟨r, h7, rfl⟩ | ⟨o, r, hi⟩
    · obtain ⟨cmd, hc⟩ := exists_commandWord h7
      exact ⟨_, .encode w rest r cmd hq hr hd hc⟩
    · obtain ⟨cmd, hc⟩ := exists_commandWord (ne_seven_of_readLatches hi.readLatches)
      cases hx : s.csExplicit with
      | true => exact ⟨_, .startExplicit w rest i o r cmd hq hr hd hi hc hx⟩
      | false => exact ⟨_, .startImplicit w rest i o r cmd hq hr hd hi hc hx⟩

/-- A busy engine that waits for a select call has a row for every answer (R147). -/
theorem exists_row_of_select {a : SelectAnswer} {rest : List SelectAnswer}
    (hq : s.seq = .aSel ∨ s.seq = .aDes ∨ s.seq = .bSel ∨ s.seq = .bDes) (hr : s.selectAnswers = a :: rest)
    (hl : readLatches s.op s.rsel = true) : ∃ t, Row s t := by
  cases a with
  | err e => exact ⟨_, .failSelect e rest hq hr⟩
  | ok =>
    rcases hq with hq | hq | hq | hq
    · obtain ⟨cmd, hc⟩ := exists_commandWord (ne_seven_of_readLatches hl)
      exact ⟨_, .command rest cmd hq hr hc⟩
    · exact ⟨_, .openB rest hq hr⟩
    · exact ⟨_, .nopExplicit rest hq hr⟩
    · obtain ⟨d, hd⟩ := exists_completionData hl s.rxh s.rxl
      exact ⟨_, .finishExplicit rest d hq hr hd⟩

/-- A busy engine that waits for an exchange has a row for every answer (R147). -/
theorem exists_row_of_transfer {a : TransferAnswer} {rest : List TransferAnswer}
    (hq : s.seq = .aXfer ∨ s.seq = .bXfer) (hr : s.transferAnswers = a :: rest)
    (hl : readLatches s.op s.rsel = true) : ∃ t, Row s t := by
  cases a with
  | err e => exact ⟨_, .failTransfer e rest hq hr⟩
  | ok i0 i1 =>
    cases hx : s.csExplicit with
    | true =>
      rcases hq with hq | hq
      · exact ⟨_, .closeA i0 i1 rest hq hr hx⟩
      · exact ⟨_, .closeB i0 i1 rest hq hr hx⟩
    | false =>
      rcases hq with hq | hq
      · exact ⟨_, .nopImplicit i0 i1 rest hq hr hx⟩
      · obtain ⟨d, hd⟩ := exists_completionData hl i0 i1
        exact ⟨_, .finishImplicit i0 i1 rest d hq hr hx hd⟩

/-- No engine that satisfies the invariant is without a row: none of the model's stops is met. -/
theorem SequencerInv.exists_row (h : SequencerInv s) : ∃ t, Row s t := by
  rcases step_cases s with ⟨hs, -⟩ | ⟨hq, -⟩ | ⟨_, _, hq, hr, -⟩ | ⟨_, _, hq, hr, -⟩ | ⟨_, _, hq, hr, -⟩ |
    ⟨_, _, hq, hr, -⟩ | ⟨_, _, hq, hr, -⟩ | ⟨_, _, hq, hr, -⟩ | ⟨_, _, hq, hr, -⟩
  · exact ⟨s, .wait hs⟩
  · exact absurd hq h.seqNamed
  · exact exists_row_of_request hq hr
  · exact exists_row_of_select (.inl hq) hr (h.reading (by simp [hq]))
  · exact exists_row_of_transfer (.inl hq) hr (h.reading (by simp [hq]))
  · exact exists_row_of_select (.inr (.inl hq)) hr (h.reading (by simp [hq]))
  · exact exists_row_of_select (.inr (.inr (.inl hq))) hr (h.reading (by simp [hq]))
  · exact exists_row_of_transfer (.inr hq) hr (h.reading (by simp [hq]))
  · exact exists_row_of_select (.inr (.inr (.inr hq))) hr (h.reading (by simp [hq]))

end

/-! Every row keeps the invariant. A row records the answer it waited for, then responds or makes the one call that its
next state waits for; so the invariant is proved over these three kinds of row. -/

section
variable {s t u : State}

/-- What the history is once the input event that `s` waits for is recorded (R66). -/
inductive Recorded (s : State) : List Entry → Prop where
  | request (hq : s.seq = .idle) : Recorded s s.history
  | select (hq : s.seq = .aSel ∨ s.seq = .aDes ∨ s.seq = .bSel ∨ s.seq = .bDes) (a : SelectAnswer) :
      Recorded s (answerSelect a s.history)
  | transfer (hq : s.seq = .aXfer ∨ s.seq = .bXfer) (a : TransferAnswer) : Recorded s (answerTransfer a s.history)

/-- In `u`, going to `q`, the call `c` is due: the state `q` waits for it, the latches are those of a read, and `q` is
reached with the strap as it is. -/
structure CallDue (u : State) (c : Call) (q : SeqState) : Prop where
  outstanding : (u.issue c q).outstanding = some c
  reading : readLatches u.op u.rsel = true
  implicitSelect : u.csExplicit = false → q = .aXfer ∨ q = .bXfer

/-- The three kinds of row. -/
inductive RowKind (s : State) : State → Prop where
  | wait : RowKind s s
  | respond (u : State) (x : Response) (hu : Recorded s u.history) : RowKind s (u.respond x)
  | issue (u : State) (c : Call) (q : SeqState) (hu : Recorded s u.history) (hc : CallDue u c q) :
      RowKind s (u.issue c q)

/-- The kind of each row, on an engine that satisfies the invariant. -/
theorem Row.kind (h : Row s t) (hs : SequencerInv s) : RowKind s t := by
  cases h with
  | wait => exact .wait
  | refuse w rest e hq => exact .respond _ _ (.request hq)
  | encode w rest r cmd hq => exact .respond _ _ (.request hq)
  | startExplicit w rest i o r cmd hq hr hd hi hc hx =>
    exact .issue _ _ _ (.request hq) ⟨rfl, hi.readLatches, by simp [hx]⟩
  | startImplicit w rest i o r cmd hq hr hd hi hc =>
    exact .issue _ _ _ (.request hq) ⟨by simp [State.outstanding, hc], hi.readLatches, by simp⟩
  | command rest cmd hq hr hc =>
    exact .issue _ _ _ (.select (.inl hq) _)
      ⟨by simp [State.outstanding, hc], hs.reading (by simp [hq]), by simp⟩
  | failSelect e rest hq => exact .respond _ _ (.select hq _)
  | closeA i0 i1 rest hq hr hx =>
    exact .issue _ _ _ (.transfer (.inl hq) _) ⟨rfl, hs.reading (by simp [hq]), by simp [hx]⟩
  | nopImplicit i0 i1 rest hq =>
    exact .issue _ _ _ (.transfer (.inl hq) _) ⟨rfl, hs.reading (by simp [hq]), by simp⟩
  | failTransfer e rest hq => exact .respond _ _ (.transfer hq _)
  | openB rest hq =>
    exact .issue _ _ _ (.select (.inr (.inl hq)) _)
      ⟨rfl, hs.reading (by simp [hq]), fun hx => absurd (hs.implicitSelect hx) (by simp [hq])⟩
  | nopExplicit rest hq =>
    exact .issue _ _ _ (.select (.inr (.inr (.inl hq))) _) ⟨rfl, hs.reading (by simp [hq]), by simp⟩
  | closeB i0 i1 rest hq hr hx =>
    exact .issue _ _ _ (.transfer (.inr hq) _) ⟨rfl, hs.reading (by simp [hq]), by simp [hx]⟩
  | finishImplicit i0 i1 rest d hq => exact .respond _ _ (.transfer (.inr hq) _)
  | finishExplicit rest d hq => exact .respond _ _ (.select (.inr (.inr (.inr hq))) _)

theorem CallDue.sequencerInv {c : Call} {q : SeqState} (h : CallDue u c q) : SequencerInv (u.issue c q) where
  seqNamed := by
    rintro rfl
    cases h.outstanding
  reading _ := h.reading
  implicitSelect hx := .inr (h.implicitSelect hx)

theorem Row.sequencerInv (h : Row s t) (hs : SequencerInv s) : SequencerInv t := by
  cases h.kind hs with
  | wait => exact hs
  | respond => exact sequencerInv_of_idle rfl
  | issue u c q hu hc => exact hc.sequencerInv

theorem historyMatches_iff_of_idle (hq : s.seq = .idle) :
    s.historyMatches = true ↔ s.history.all Entry.answered = true := by
  simp [State.historyMatches, State.outstanding, hq]

theorem historyMatches_iff_of_outstanding {c : Call} (hc : s.outstanding = some c) :
    s.historyMatches = true ↔ ∃ h, s.history = c.entry :: h ∧ h.all Entry.answered = true := by
  unfold State.historyMatches
  rw [hc]
  cases s.history <;> simp

/-- Recording the answer leaves no call unanswered: the outstanding call is the history's head (R62). -/
theorem Recorded.all_answered {h : List Entry} (hr : Recorded s h) (hs : EngineInv s) :
    h.all Entry.answered = true := by
  cases hr with
  | request hq => exact (historyMatches_iff_of_idle hq).mp hs.oneCall
  | select hq a =>
    obtain ⟨c, hc, hsel⟩ : ∃ c, s.outstanding = some c ∧ (c = .csLow ∨ c = .csHigh) := by
      rcases hq with hq | hq | hq | hq <;> simp [State.outstanding, hq]
    obtain ⟨h, hh, ha⟩ := (historyMatches_iff_of_outstanding hc).mp hs.oneCall
    rcases hsel with rfl | rfl <;> simpa [hh, Call.entry, answerSelect, Entry.answered] using ha
  | transfer hq a =>
    obtain ⟨cmd, hcmd⟩ : ∃ w, commandWord s.rsel = some w :=
      exists_commandWord (ne_seven_of_readLatches (hs.reading (by rcases hq with hq | hq <;> simp [hq])))
    obtain ⟨o0, o1, hc⟩ : ∃ o0 o1, s.outstanding = some (.transfer o0 o1) := by
      rcases hq with hq | hq <;> simp [State.outstanding, hq, hcmd, exchangeOf]
    obtain ⟨h, hh, ha⟩ := (historyMatches_iff_of_outstanding hc).mp hs.oneCall
    simpa [hh, Call.entry, answerTransfer, Entry.answered] using ha

/-- Every row keeps the invariant of the machine. -/
theorem Row.engineInv (h : Row s t) (hs : EngineInv s) : EngineInv t := by
  refine (h.sequencerInv hs.sequencerInv).engineInv ?_
  cases h.kind hs.sequencerInv with
  | wait => exact hs.oneCall
  | respond u x hu => exact (historyMatches_iff_of_idle rfl).mpr (hu.all_answered hs)
  | issue u c q hu hc =>
    exact (historyMatches_iff_of_outstanding hc.outstanding).mpr ⟨u.history, rfl, hu.all_answered hs⟩

end

/-- Settles O3: an engine with the invariant has a row for its input, and every row keeps the invariant. -/
theorem everyStepCompletesAndKeepsInvariant : Obligations.EveryStepCompletesAndKeepsInvariant := by
  intro s hs
  obtain ⟨t, ht⟩ := hs.sequencerInv.exists_row
  exact ⟨t, step_of_row ht, ht.engineInv hs⟩

/-! Runs: what every step keeps, every run keeps. -/

section
variable {s t : State}

theorem exists_step_of_run_succ {n : Nat} (h : run (n + 1) s = .next t) :
    ∃ u, step s = .next u ∧ run n u = .next t := by
  cases hs : step s with
  | next u => exact ⟨u, rfl, run_succ_of_next hs ▸ h⟩
  | fault r => rw [run_succ_of_fault hs] at h; cases h
  | refused r => rw [run_succ_of_refused hs] at h; cases h

theorem run_keeps {P : State → Prop} (hP : ∀ s t, Row s t → P s → P t) {n : Nat} (h : run n s = .next t)
    (hs : P s) : P t := by
  induction n generalizing s with
  | zero => cases h; exact hs
  | succ n ih =>
    obtain ⟨u, hu, hn⟩ := exists_step_of_run_succ h
    exact ih hn (hP s u (row_of_step hu) hs)

/-- No named operation writes the strap, so no row does (R26). -/
theorem Row.csExplicit (h : Row s t) : t.csExplicit = s.csExplicit := by
  cases h <;> rfl

end

/-- Settles O42: no row writes the strap, so no run does. -/
theorem strapNeverChanges : Obligations.StrapNeverChanges :=
  fun _ s _ h => run_keeps (P := fun u => u.csExplicit = s.csExplicit) (fun _ _ hr hu => hr.csExplicit.trans hu) h rfl

/-! Two engines that started idle with the same inputs (10_state.md R20). -/

section
variable {s₀ t₀ s t s' : State}

/-- `s` and `t` have the same strap and inputs, and have made the same calls, with the same answers, and given the same
responses since `s₀` and `t₀`. -/
structure SameTrace (s₀ t₀ s t : State) : Prop where
  strap : s.csExplicit = t.csExplicit
  requests : s.requests = t.requests
  selectAnswers : s.selectAnswers = t.selectAnswers
  transferAnswers : s.transferAnswers = t.transferAnswers
  calls : ∃ calls, s.history = calls ++ s₀.history ∧ t.history = calls ++ t₀.history
  replies : ∃ replies, s.responses = replies ++ s₀.responses ∧ t.responses = replies ++ t₀.responses

/-- `s` and `t` are at the same point of the same operation: beside `SameTrace`, they agree on each latch from where it
is written to where the operation ends (R148, R142), and a call outstanding is one made since `s₀` and `t₀`. -/
structure SamePoint (s₀ t₀ s t : State) : Prop extends SameTrace s₀ t₀ s t where
  seq : s.seq = t.seq
  latches : s.seq ≠ .idle → s.op = t.op ∧ s.rsel = t.rsel
  reply : s.seq = .bDes → s.rxh = t.rxh ∧ s.rxl = t.rxl
  pending : s.seq ≠ .idle →
    ∃ e calls, s.history = (e :: calls) ++ s₀.history ∧ t.history = (e :: calls) ++ t₀.history

theorem answerSelect_cons_append (a : SelectAnswer) (e : Entry) (l h : List Entry) :
    answerSelect a ((e :: l) ++ h) = answerSelect a (e :: l) ++ h := by
  rcases e with (_ | _) | (_ | _) | _ <;> rfl

theorem answerTransfer_cons_append (a : TransferAnswer) (e : Entry) (l h : List Entry) :
    answerTransfer a ((e :: l) ++ h) = answerTransfer a (e :: l) ++ h := by
  rcases e with _ | _ | ⟨_, _, _ | _⟩ <;> rfl

theorem SamePoint.takeRequest (h : SamePoint s₀ t₀ s t) (rest : List Hreq) :
    SameTrace s₀ t₀ (s.takeRequest rest) (t.takeRequest rest) :=
  { h.toSameTrace with requests := rfl }

theorem SamePoint.takeSelect (h : SamePoint s₀ t₀ s t) (hq : s.seq ≠ .idle) (a : SelectAnswer)
    (rest : List SelectAnswer) : SameTrace s₀ t₀ (s.takeSelect a rest) (t.takeSelect a rest) := by
  obtain ⟨e, calls, hs, ht⟩ := h.pending hq
  exact { h.toSameTrace with
    selectAnswers := rfl
    calls := ⟨answerSelect a (e :: calls), by simp only [State.takeSelect_history, hs, answerSelect_cons_append],
      by simp only [State.takeSelect_history, ht, answerSelect_cons_append]⟩ }

theorem SamePoint.takeTransfer (h : SamePoint s₀ t₀ s t) (hq : s.seq ≠ .idle) (a : TransferAnswer)
    (rest : List TransferAnswer) : SameTrace s₀ t₀ (s.takeTransfer a rest) (t.takeTransfer a rest) := by
  obtain ⟨e, calls, hs, ht⟩ := h.pending hq
  exact { h.toSameTrace with
    transferAnswers := rfl
    calls := ⟨answerTransfer a (e :: calls),
      by simp only [State.takeTransfer_history, hs, answerTransfer_cons_append],
      by simp only [State.takeTransfer_history, ht, answerTransfer_cons_append]⟩ }

theorem SameTrace.latch (h : SameTrace s₀ t₀ s t) (o : OpCode) (r : Sel) :
    SameTrace s₀ t₀ (s.latch o r) (t.latch o r) :=
  { h with }

theorem SameTrace.latchReply (h : SameTrace s₀ t₀ s t) (i0 i1 : Byte) :
    SameTrace s₀ t₀ (s.latchReply i0 i1) (t.latchReply i0 i1) :=
  { h with }

theorem SameTrace.respond (h : SameTrace s₀ t₀ s t) (x : Response) :
    SamePoint s₀ t₀ (s.respond x) (t.respond x) := by
  obtain ⟨replies, hs, ht⟩ := h.replies
  exact { h with
    replies := ⟨x :: replies, by simp [hs], by simp [ht]⟩
    seq := rfl
    latches := fun hq => absurd rfl hq
    reply := nofun
    pending := fun hq => absurd rfl hq }

theorem SameTrace.issue (h : SameTrace s₀ t₀ s t) (c : Call) {q : SeqState} (hl : s.op = t.op ∧ s.rsel = t.rsel)
    (hr : q = .bDes → s.rxh = t.rxh ∧ s.rxl = t.rxl) : SamePoint s₀ t₀ (s.issue c q) (t.issue c q) := by
  obtain ⟨calls, hs, ht⟩ := h.calls
  have hcalls : (s.issue c q).history = (c.entry :: calls) ++ s₀.history ∧
      (t.issue c q).history = (c.entry :: calls) ++ t₀.history := by simp [hs, ht]
  exact { h with
    calls := ⟨_, hcalls⟩
    seq := rfl
    latches := fun _ => hl
    reply := hr
    pending := fun _ => ⟨_, _, hcalls⟩ }

/-- An engine has the row that another engine at the same point has, and both are at the same point after it. -/
theorem Row.samePoint (hrow : Row s s') (h : SamePoint s₀ t₀ s t) : ∃ t', Row t t' ∧ SamePoint s₀ t₀ s' t' := by
  have hseq := h.seq
  have hreq := h.requests
  have hsel := h.selectAnswers
  have htra := h.transferAnswers
  have hcs := h.strap
  cases hrow with
  | wait hs => exact ⟨t, .wait (by simpa [State.starved, hseq, hreq, hsel, htra] using hs), h⟩
  | refuse w rest e hq hr hd =>
    exact ⟨_, .refuse w rest e (hseq ▸ hq) (hreq ▸ hr) hd, (h.takeRequest rest).respond _⟩
  | encode w rest r cmd hq hr hd hc =>
    exact ⟨_, .encode w rest r cmd (hseq ▸ hq) (hreq ▸ hr) hd hc, ((h.takeRequest rest).latch 0#3 r).respond _⟩
  | startExplicit w rest i o r cmd hq hr hd hi hc hx =>
    exact ⟨_, .startExplicit w rest i o r cmd (hseq ▸ hq) (hreq ▸ hr) hd hi hc (hcs ▸ hx),
      ((h.takeRequest rest).latch o r).issue _ ⟨rfl, rfl⟩ nofun⟩
  | startImplicit w rest i o r cmd hq hr hd hi hc hx =>
    exact ⟨_, .startImplicit w rest i o r cmd (hseq ▸ hq) (hreq ▸ hr) hd hi hc (hcs ▸ hx),
      ((h.takeRequest rest).latch o r).issue _ ⟨rfl, rfl⟩ nofun⟩
  | command rest cmd hq hr hc =>
    have hb : s.seq ≠ .idle := by simp [hq]
    exact ⟨_, .command rest cmd (hseq ▸ hq) (hsel ▸ hr) ((h.latches hb).2 ▸ hc),
      (h.takeSelect hb _ rest).issue _ (h.latches hb) nofun⟩
  | failSelect e rest hq hr =>
    have hb : s.seq ≠ .idle := by rcases hq with hq | hq | hq | hq <;> simp [hq]
    exact ⟨_, .failSelect e rest (hseq ▸ hq) (hsel ▸ hr), (h.takeSelect hb _ rest).respond _⟩
  | closeA i0 i1 rest hq hr hx =>
    have hb : s.seq ≠ .idle := by simp [hq]
    exact ⟨_, .closeA i0 i1 rest (hseq ▸ hq) (htra ▸ hr) (hcs ▸ hx),
      (h.takeTransfer hb _ rest).issue _ (h.latches hb) nofun⟩
  | nopImplicit i0 i1 rest hq hr hx =>
    have hb : s.seq ≠ .idle := by simp [hq]
    exact ⟨_, .nopImplicit i0 i1 rest (hseq ▸ hq) (htra ▸ hr) (hcs ▸ hx),
      (h.takeTransfer hb _ rest).issue _ (h.latches hb) nofun⟩
  | failTransfer e rest hq hr =>
    have hb : s.seq ≠ .idle := by rcases hq with hq | hq <;> simp [hq]
    exact ⟨_, .failTransfer e rest (hseq ▸ hq) (htra ▸ hr), (h.takeTransfer hb _ rest).respond _⟩
  | openB rest hq hr =>
    have hb : s.seq ≠ .idle := by simp [hq]
    exact ⟨_, .openB rest (hseq ▸ hq) (hsel ▸ hr), (h.takeSelect hb _ rest).issue _ (h.latches hb) nofun⟩
  | nopExplicit rest hq hr =>
    have hb : s.seq ≠ .idle := by simp [hq]
    exact ⟨_, .nopExplicit rest (hseq ▸ hq) (hsel ▸ hr), (h.takeSelect hb _ rest).issue _ (h.latches hb) nofun⟩
  | closeB i0 i1 rest hq hr hx =>
    have hb : s.seq ≠ .idle := by simp [hq]
    exact ⟨_, .closeB i0 i1 rest (hseq ▸ hq) (htra ▸ hr) (hcs ▸ hx),
      ((h.takeTransfer hb _ rest).latchReply i0 i1).issue _ (h.latches hb) fun _ => ⟨rfl, rfl⟩⟩
  | finishImplicit i0 i1 rest d hq hr hx hd =>
    have hb : s.seq ≠ .idle := by simp [hq]
    exact ⟨_, .finishImplicit i0 i1 rest d (hseq ▸ hq) (htra ▸ hr) (hcs ▸ hx) ((h.latches hb).1 ▸ hd),
      ((h.takeTransfer hb _ rest).latchReply i0 i1).respond _⟩
  | finishExplicit rest d hq hr hd =>
    have hb : s.seq ≠ .idle := by simp [hq]
    obtain ⟨hh, hl⟩ := h.reply hq
    exact ⟨_, .finishExplicit rest d (hseq ▸ hq) (hsel ▸ hr) ((h.latches hb).1 ▸ hh ▸ hl ▸ hd),
      (h.takeSelect hb _ rest).respond _⟩

/-- Two idle engines with the same strap and inputs are at the same point, whatever their latches and records. -/
theorem samePoint_of_idle (hs : s.seq = .idle) (ht : t.seq = .idle) (hcs : s.csExplicit = t.csExplicit)
    (hreq : s.requests = t.requests) (hsel : s.selectAnswers = t.selectAnswers)
    (htra : s.transferAnswers = t.transferAnswers) : SamePoint s t s t where
  strap := hcs
  requests := hreq
  selectAnswers := hsel
  transferAnswers := htra
  calls := ⟨[], rfl, rfl⟩
  replies := ⟨[], rfl, rfl⟩
  seq := hs.trans ht.symm
  latches hq := absurd hs hq
  reply hq := by simp [hs] at hq
  pending hq := absurd hs hq

/-- Engines at the same point run side by side, and neither stops. -/
theorem SamePoint.exists_runs (h : SamePoint s₀ t₀ s t) (hs : SequencerInv s) (n : Nat) :
    ∃ s' t', run n s = .next s' ∧ run n t = .next t' ∧ SamePoint s₀ t₀ s' t' := by
  induction n generalizing s t with
  | zero => exact ⟨s, t, rfl, rfl, h⟩
  | succ n ih =>
    obtain ⟨u, hu⟩ := hs.exists_row
    obtain ⟨v, hv, huv⟩ := hu.samePoint h
    rw [run_succ_of_next (step_of_row hu), run_succ_of_next (step_of_row hv)]
    exact ih huv (hu.sequencerInv hs)

end

/-- Settles O38: two idle engines with the same inputs stay at the same point of the same operation. -/
theorem nothingSurvivesAnOperation : Obligations.NothingSurvivesAnOperation := by
  intro n s t hs ht hcs hreq hsel htra
  obtain ⟨s', t', hs', ht', h⟩ :=
    (samePoint_of_idle hs ht hcs hreq hsel htra).exists_runs (sequencerInv_of_idle hs) n
  obtain ⟨calls, hcs, hct⟩ := h.calls
  obtain ⟨replies, hrs, hrt⟩ := h.replies
  exact ⟨s', t', calls, replies, hs', ht', hcs, hct, hrs, hrt, h.seq, h.requests, h.selectAnswers, h.transferAnswers⟩

/-! Construction, the stops, and the table of wire words. -/

section
variable {s : State}

theorem engineInv_of_idle (hq : s.seq = .idle) (hh : s.history.all Entry.answered = true) : EngineInv s :=
  (sequencerInv_of_idle hq).engineInv ((historyMatches_iff_of_idle hq).mpr hh)

theorem lineInv_of_idle (hq : s.seq = .idle) : LineInv s where
  asserted _ h := by simp [hq] at h
  between _ h := by simp [hq] at h

/-- `RES` has no value for an operation latch that no read sets (R149). -/
theorem completionData_eq_none {o : OpCode} (h : o = 0#3 ∨ o = 6#3 ∨ o = 7#3) (b0 b1 : Byte) :
    completionData o b0 b1 = none := by
  rcases h with rfl | rfl | rfl <;> rfl

theorem complete_of_no_data {b0 b1 : Byte} (h : completionData s.op b0 b1 = none) :
    complete b0 b1 s = .fault .noCompletion := by
  simp [complete, h]

end

/-- Settles O2: the constructed engine is idle with an empty history, and both invariants ask no more of it. -/
theorem invariantHoldsAfterConstruction : Obligations.InvariantHoldsAfterConstruction := by
  have h (cs : Bool) : EngineInv (State.construct cs) ∧ LineInv (State.construct cs) :=
    ⟨engineInv_of_idle rfl rfl, lineInv_of_idle rfl⟩
  exact ⟨h, h Config.csExplicit⟩

/-- Settles O6: code 7 has no row, selector 7 no command word, and the latch codes 0, 6 and 7 no completion data. -/
theorem stopsInUnreachableStates : Obligations.StopsInUnreachableStates := by
  refine ⟨fun s hq => ?_, fun s rest hq hr hsel => ?_, fun s rest hq hr hop => ?_,
    fun s i0 i1 rest hq hx hr hop => ?_⟩
  · simp [step, sequenceStep, hq]
  · simp [step_aSel hq hr, rowASel, hsel, runWireWord_none]
  · rw [step_bDes hq hr]
    exact complete_of_no_data (completionData_eq_none hop _ _)
  · simp only [step_bXfer hq hr, rowBXfer, State.takeTransfer_csExplicit, hx]
    exact complete_of_no_data (completionData_eq_none hop _ _)

/-- Settles O14: each row is the table `ADDR`, its command word by the encoder, and its two bytes. -/
theorem wireWordTable : Obligations.WireWordTable :=
  ⟨⟨rfl, commandWord_0, rfl⟩, ⟨rfl, commandWord_1, rfl⟩, ⟨rfl, commandWord_2, rfl⟩, ⟨rfl, commandWord_3, rfl⟩,
    ⟨rfl, commandWord_4, rfl⟩, ⟨rfl, commandWord_5, rfl⟩, ⟨rfl, commandWord_6, rfl⟩, ⟨rfl, rfl, rfl⟩⟩

end Sys2Proof.Machine

namespace Sys2Proof.Machine

/-! The record of calls is output only (20_memory.md R66): each meaning, each row and so each run has the same outcome,
but for the record, on a state and on that state with its record dropped. -/

section
variable {s t : State} {f g : State → StepResult}

@[simp] theorem State.dropHistory_seq : s.dropHistory.seq = s.seq := rfl
@[simp] theorem State.dropHistory_op : s.dropHistory.op = s.op := rfl
@[simp] theorem State.dropHistory_requests : s.dropHistory.requests = s.requests := rfl
@[simp] theorem State.dropHistory_selectAnswers : s.dropHistory.selectAnswers = s.selectAnswers := rfl
@[simp] theorem State.dropHistory_transferAnswers : s.dropHistory.transferAnswers = s.transferAnswers := rfl

/-- Dropping the record of calls from the state that `f` is run on changes nothing in the outcome but the record. -/
def HistoryBlind (f : State → StepResult) : Prop :=
  ∀ s, mapNext State.dropHistory (f s.dropHistory) = mapNext State.dropHistory (f s)

/-- What does not read the record has the same outcome, but for the record, on any two states that differ only there. -/
theorem HistoryBlind.congr (hf : HistoryBlind f) (h : s.dropHistory = t.dropHistory) :
    mapNext State.dropHistory (f s) = mapNext State.dropHistory (f t) :=
  calc mapNext State.dropHistory (f s)
    _ = mapNext State.dropHistory (f s.dropHistory) := (hf s).symm
    _ = mapNext State.dropHistory (f t.dropHistory) := by rw [h]
    _ = mapNext State.dropHistory (f t) := hf t

/-- A branch on something other than the record. -/
theorem HistoryBlind.ite {p : State → Prop} {dec : ∀ s, Decidable (p s)} (hp : ∀ s, p s.dropHistory ↔ p s)
    (hf : HistoryBlind f) (hg : HistoryBlind g) : HistoryBlind fun s => if p s then f s else g s := by
  intro s
  by_cases h : p s
  · simpa only [if_pos h, if_pos ((hp s).mpr h)] using hf s
  · simpa only [if_neg h, if_neg fun h' => h ((hp s).mp h')] using hg s

theorem historyBlind_acceptRead (o : OpCode) (r : Sel) : HistoryBlind (acceptRead o r) := by
  refine .ite (fun _ => .rfl) ?_ fun _ => rfl
  cases commandWord r with
  | none => exact fun _ => rfl
  | some w => exact .ite (fun _ => .rfl) (fun _ => rfl) fun _ => rfl

theorem historyBlind_execEncode (r : Sel) : HistoryBlind (execEncode r) := by
  refine .ite (fun _ => .rfl) ?_ fun _ => rfl
  cases commandWord r <;> exact fun _ => rfl

theorem historyBlind_sendCommand (r : Sel) : HistoryBlind (sendCommand r) := by
  refine .ite (fun _ => .rfl) ?_ fun _ => rfl
  cases commandWord r <;> exact fun _ => rfl

theorem historyBlind_sendNop : HistoryBlind sendNop := .ite (fun _ => .rfl) (fun _ => rfl) fun _ => rfl

theorem historyBlind_complete (b0 b1 : Byte) : HistoryBlind (complete b0 b1) := by
  intro s
  simp only [complete, State.dropHistory_op]
  cases completionData s.op b0 b1 <;> rfl

theorem historyBlind_exec (i : Instr) : HistoryBlind (exec i) := by
  cases i with
  | encode r => exact historyBlind_execEncode r
  | execute r => exact historyBlind_acceptRead 1#3 r
  | readU16 r => exact historyBlind_acceptRead 2#3 r
  | diagGain => exact historyBlind_acceptRead 3#3 4#3
  | magnitude => exact historyBlind_acceptRead 4#3 5#3
  | angle => exact historyBlind_acceptRead 5#3 6#3
  | rdClearErrorFlag => exact historyBlind_sendCommand 0#3
  | rdProgrammingControl => exact historyBlind_sendCommand 1#3
  | rdOtpZeroPosHigh => exact historyBlind_sendCommand 2#3
  | rdOtpZeroPosLow => exact historyBlind_sendCommand 3#3
  | rdDiagAgc => exact historyBlind_sendCommand 4#3
  | rdMagnitude => exact historyBlind_sendCommand 5#3
  | rdAngle => exact historyBlind_sendCommand 6#3
  | nop => exact historyBlind_sendNop

theorem historyBlind_runWireWord (w : Option Word) : HistoryBlind (runWireWord w) := by
  intro s
  cases w with
  | none => rfl
  | some w =>
    simp only [runWireWord]
    cases decodeWire w with
    | ok i => exact historyBlind_exec i s
    | error e => rfl

theorem historyBlind_rowRequest (w : Hreq) : HistoryBlind (rowRequest w) := by
  intro s
  simp only [rowRequest]
  cases decodeHreq w with
  | ok i => exact historyBlind_exec i s
  | error e => rfl

theorem historyBlind_rowASel (a : SelectAnswer) : HistoryBlind (rowASel a) := by
  intro s
  cases a with
  | ok => exact historyBlind_runWireWord (commandWord s.rsel) s
  | err e => rfl

theorem historyBlind_rowAXfer (a : TransferAnswer) : HistoryBlind (rowAXfer a) := by
  cases a with
  | ok i0 i1 => exact .ite (fun _ => .rfl) (fun _ => rfl) (historyBlind_runWireWord (some nopWord))
  | err e => exact fun _ => rfl

theorem historyBlind_rowADes (a : SelectAnswer) : HistoryBlind (rowADes a) := by
  intro s
  cases a <;> rfl

theorem historyBlind_rowBSel (a : SelectAnswer) : HistoryBlind (rowBSel a) := by
  intro s
  cases a with
  | ok => exact historyBlind_runWireWord (some nopWord) s
  | err e => rfl

theorem historyBlind_rowBXfer (a : TransferAnswer) : HistoryBlind (rowBXfer a) := by
  cases a with
  | ok i0 i1 =>
    exact .ite (fun _ => .rfl) (fun _ => rfl) fun s => historyBlind_complete i0 i1 (s.latchReply i0 i1)
  | err e => exact fun _ => rfl

theorem historyBlind_rowBDes (a : SelectAnswer) : HistoryBlind (rowBDes a) := by
  intro s
  cases a with
  | ok => exact historyBlind_complete s.rxh s.rxl s
  | err e => rfl

theorem historyBlind_awaitRequest : HistoryBlind awaitRequest := by
  intro s
  simp only [awaitRequest, State.dropHistory_requests]
  cases s.requests with
  | nil => rfl
  | cons w rest => exact historyBlind_rowRequest w (s.takeRequest rest)

/-- The answer to a select call is recorded before its row is taken: the row, too, is blind to the record. -/
theorem historyBlind_awaitSelect {row : SelectAnswer → State → StepResult} (hrow : ∀ a, HistoryBlind (row a)) :
    HistoryBlind (awaitSelect row) := by
  intro s
  simp only [awaitSelect, State.dropHistory_selectAnswers]
  cases s.selectAnswers with
  | nil => rfl
  | cons a rest => exact (hrow a).congr rfl

theorem historyBlind_awaitTransfer {row : TransferAnswer → State → StepResult} (hrow : ∀ a, HistoryBlind (row a)) :
    HistoryBlind (awaitTransfer row) := by
  intro s
  simp only [awaitTransfer, State.dropHistory_transferAnswers]
  cases s.transferAnswers with
  | nil => rfl
  | cons a rest => exact (hrow a).congr rfl

theorem historyBlind_step : HistoryBlind step := by
  intro s
  simp only [step, sequenceStep, State.dropHistory_seq]
  cases s.seq with
  | idle => exact historyBlind_awaitRequest s
  | aSel => exact historyBlind_awaitSelect historyBlind_rowASel s
  | aXfer => exact historyBlind_awaitTransfer historyBlind_rowAXfer s
  | aDes => exact historyBlind_awaitSelect historyBlind_rowADes s
  | bSel => exact historyBlind_awaitSelect historyBlind_rowBSel s
  | bXfer => exact historyBlind_awaitTransfer historyBlind_rowBXfer s
  | bDes => exact historyBlind_awaitSelect historyBlind_rowBDes s
  | reserved => rfl

/-- Two outcomes under one view are both next states, or are the same stop: a view does not touch a stop's reason. -/
theorem mapNext_eq_cases {x y : StepResult} {k : State → State} (h : mapNext k x = mapNext k y) :
    (∃ a b, x = .next a ∧ y = .next b ∧ k a = k b) ∨ (∃ r, x = .fault r ∧ y = .fault r) ∨
    ∃ r, x = .refused r ∧ y = .refused r := by
  cases x <;> cases y <;> simp_all [mapNext]

theorem historyBlind_run (n : Nat) : HistoryBlind (run n) := by
  induction n with
  | zero => exact fun _ => rfl
  | succ n ih =>
    intro s
    rcases mapNext_eq_cases (historyBlind_step s) with ⟨a, b, ha, hb, hab⟩ | ⟨r, hd, hs⟩ | ⟨r, hd, hs⟩
    · rw [run_succ_of_next ha, run_succ_of_next hb, ih.congr hab]
    · rw [run_succ_of_fault hd, run_succ_of_fault hs]
    · rw [run_succ_of_refused hd, run_succ_of_refused hs]

end

/-- Settles O39: the state with another history and the state itself are the same once the history is dropped. -/
theorem historyIsNeverRead : Obligations.HistoryIsNeverRead :=
  fun n _ _ => (historyBlind_run n).congr rfl

end Sys2Proof.Machine

namespace Sys2Proof.Machine

/-! A read that succeeds has made two exchanges, its command word and then the no-op, and its data is that of the second
one's reply (20_memory.md R60; 41_transaction.md R140 to R142). -/

section
variable {s t : State} {o : OpCode} {cmd : Word} {past : List Response} {l : List (Word × Option TransferAnswer)}

@[simp] theorem exchanges_answerSelect (a : SelectAnswer) (h : List Entry) :
    exchanges (answerSelect a h) = exchanges h := by
  unfold answerSelect
  split <;> rfl

/-- The exchange outstanding, once answered, is the latest of the exchanges. -/
theorem exchanges_answerTransfer (a : TransferAnswer) (w : Word) (h : List Entry) :
    exchanges (answerTransfer a ((exchangeOf w).entry :: h)) = (w, some a) :: exchanges h := by
  simp [exchangeOf, Call.entry, answerTransfer, exchanges]

/-- The latest exchange sent the command word and went through: Transaction A is done (R141). -/
def CommandAnswered (cmd : Word) (l : List (Word × Option TransferAnswer)) : Prop :=
  ∃ p0 p1 earlier, l = (cmd, some (.ok p0 p1)) :: earlier

/-- The latest exchange brought the bytes `i0` and `i1`, straight after the one that sent the command word:
Transaction B is done (R142). -/
def ReplyReceived (cmd : Word) (i0 i1 : Byte) (l : List (Word × Option TransferAnswer)) : Prop :=
  ∃ w earlier, l = (w, some (.ok i0 i1)) :: earlier ∧ CommandAnswered cmd earlier

/-- The premise of R60, at the two exchanges of a read. -/
theorem ReplyReceived.answers {answers : Word → Word → Prop} {i0 i1 : Byte} (h : ReplyReceived cmd i0 i1 l)
    (hp : Pipelined answers l) : answers cmd (wordOf i0 i1) := by
  obtain ⟨w, _, rfl, p0, p1, earlier, rfl⟩ := h
  exact hp.1

/-- How far the exchanges of a read have come in each state of the sequencer (10_state.md R24). -/
def ReadPoint (cmd : Word) (s : State) : Prop :=
  match s.seq with
  | .idle | .aSel | .reserved => True
  | .aXfer => ∃ h, s.history = (exchangeOf cmd).entry :: h
  | .aDes | .bSel => CommandAnswered cmd (exchanges s.history)
  | .bXfer => ∃ h, s.history = (exchangeOf nopWord).entry :: h ∧ CommandAnswered cmd (exchanges h)
  | .bDes => ReplyReceived cmd s.rxh s.rxl (exchanges s.history)

/-- The one read asked for is in progress: no further request waits, and nothing is responded since `past`. -/
structure ReadInProgress (o : OpCode) (cmd : Word) (past : List Response) (s : State) : Prop where
  busy : s.seq ≠ .idle
  op : s.op = o
  command : commandWord s.rsel = some cmd
  requests : s.requests = []
  responses : s.responses = past
  point : ReadPoint cmd s

/-- The one read asked for has ended with its response; if that is `Ok`, the data is `RES` of Transaction B's bytes. -/
structure ReadEnded (o : OpCode) (cmd : Word) (past : List Response) (s : State) : Prop where
  idle : s.seq = .idle
  requests : s.requests = []
  response : ∃ x, s.responses = x :: past ∧ ∀ d, x = .ok d →
    ∃ i0 i1, completionData o i0 i1 = some d ∧ ReplyReceived cmd i0 i1 (exchanges s.history)

/-- Acceptance of a read (rows T2a, T2b) with no other request waiting. -/
theorem exists_readInProgress {w : Hreq} {i : Instr} {r : Sel} (hq : s.seq = .idle) (hw : s.requests = [w])
    (hd : decodeHreq w = .ok i) (hi : ReadRequest i o r) (hc : commandWord r = some cmd) :
    ∃ u, step s = .next u ∧ ReadInProgress o cmd s.responses u := by
  cases hx : s.csExplicit with
  | true =>
    exact ⟨_, step_of_row (.startExplicit w [] i o r cmd hq hw hd hi hc hx), nofun, rfl, hc, rfl, rfl, trivial⟩
  | false =>
    exact ⟨_, step_of_row (.startImplicit w [] i o r cmd hq hw hd hi hc hx), nofun, rfl, hc, rfl, rfl, _, rfl⟩

/-- An engine without its input has no row but the wait (R150). -/
theorem Row.eq_of_starved (h : Row s t) (hs : s.starved = true) : t = s :=
  Host.Outcome.next.inj ((step_of_row h).symm.trans (step_of_row (.wait hs)))

/-- Row T5: the answer to Transaction A's exchange. -/
theorem ReadPoint.commandAnswered (h : ReadPoint cmd s) (hq : s.seq = .aXfer) (i0 i1 : Byte) :
    CommandAnswered cmd (exchanges (answerTransfer (.ok i0 i1) s.history)) := by
  obtain ⟨earlier, hh⟩ : ∃ earlier, s.history = (exchangeOf cmd).entry :: earlier := by
    simpa only [ReadPoint, hq] using h
  exact ⟨i0, i1, exchanges earlier, by rw [hh, exchanges_answerTransfer]⟩

/-- Row T11: the answer to Transaction B's exchange. -/
theorem ReadPoint.replyReceived (h : ReadPoint cmd s) (hq : s.seq = .bXfer) (i0 i1 : Byte) :
    ReplyReceived cmd i0 i1 (exchanges (answerTransfer (.ok i0 i1) s.history)) := by
  obtain ⟨earlier, hh, ha⟩ : ∃ earlier, s.history = (exchangeOf nopWord).entry :: earlier ∧
      CommandAnswered cmd (exchanges earlier) := by
    simpa only [ReadPoint, hq] using h
  exact ⟨nopWord, exchanges earlier, by rw [hh, exchanges_answerTransfer], ha⟩

/-- Every row of an engine in the middle of a read carries the read on or ends it. -/
theorem Row.readInProgress_or_readEnded (hrow : Row s t) (h : ReadInProgress o cmd past s) :
    ReadInProgress o cmd past t ∨ ReadEnded o cmd past t := by
  have hpt := h.point
  cases hrow with
  | wait => exact .inl h
  | refuse w rest e hq => exact absurd hq h.busy
  | encode w rest r cmd hq => exact absurd hq h.busy
  | startExplicit w rest i o r cmd hq => exact absurd hq h.busy
  | startImplicit w rest i o r cmd hq => exact absurd hq h.busy
  | command rest cmd' hq hr hc =>
    obtain rfl : cmd = cmd' := Option.some.inj (h.command.symm.trans hc)
    exact .inl { h with busy := nofun, point := ⟨_, rfl⟩ }
  | failSelect e rest => exact .inr ⟨rfl, h.requests, _, congrArg _ h.responses, nofun⟩
  | closeA i0 i1 rest hq => exact .inl { h with busy := nofun, point := hpt.commandAnswered hq i0 i1 }
  | nopImplicit i0 i1 rest hq =>
    exact .inl { h with busy := nofun, point := ⟨_, rfl, hpt.commandAnswered hq i0 i1⟩ }
  | failTransfer e rest => exact .inr ⟨rfl, h.requests, _, congrArg _ h.responses, nofun⟩
  | openB rest hq =>
    have ha : CommandAnswered cmd (exchanges (answerSelect .ok s.history)) := by simpa [ReadPoint, hq] using hpt
    exact .inl { h with busy := nofun, point := ha }
  | nopExplicit rest hq =>
    have ha : CommandAnswered cmd (exchanges (answerSelect .ok s.history)) := by simpa [ReadPoint, hq] using hpt
    exact .inl { h with busy := nofun, point := ⟨_, rfl, ha⟩ }
  | closeB i0 i1 rest hq => exact .inl { h with busy := nofun, point := hpt.replyReceived hq i0 i1 }
  | finishImplicit i0 i1 rest d hq hr hx hd =>
    refine .inr ⟨rfl, h.requests, .ok d, congrArg _ h.responses, ?_⟩
    rintro _ ⟨⟩
    exact ⟨i0, i1, h.op ▸ hd, hpt.replyReceived hq i0 i1⟩
  | finishExplicit rest d hq hr hd =>
    have hb : ReplyReceived cmd s.rxh s.rxl (exchanges (answerSelect .ok s.history)) := by
      simpa [ReadPoint, hq] using hpt
    refine .inr ⟨rfl, h.requests, .ok d, congrArg _ h.responses, ?_⟩
    rintro _ ⟨⟩
    exact ⟨s.rxh, s.rxl, h.op ▸ hd, hb⟩

/-- Once ended, the read stays as it ended: no request waits. -/
theorem ReadEnded.eq_of_row (h : ReadEnded o cmd past s) (hrow : Row s t) : t = s :=
  hrow.eq_of_starved (by simp [State.starved, h.idle, h.requests])

/-- A run in the middle of a read leaves the read in progress or ended, whatever its length. -/
theorem ReadInProgress.run (h : ReadInProgress o cmd past s) {n : Nat} (hn : run n s = .next t) :
    ReadInProgress o cmd past t ∨ ReadEnded o cmd past t := by
  refine run_keeps (P := fun u => ReadInProgress o cmd past u ∨ ReadEnded o cmd past u) ?_ hn (.inl h)
  rintro u v hrow (hu | hu)
  · exact hrow.readInProgress_or_readEnded hu
  · exact hu.eq_of_row hrow ▸ .inr hu

end

/-- Settles O45: a response `Ok` ends the read, and its data is that of the reply to the exchange after the command. -/
theorem pipelinedReplyAnswersCommand : Obligations.PipelinedReplyAnswersCommand := by
  intro answers s w i o r cmd t d hq hw hd hi hc hrun hresp hpipe
  obtain ⟨u, hu, hread⟩ := exists_readInProgress hq hw hd hi hc
  rw [run_succ_of_next hu] at hrun
  rcases hread.run hrun with ht | ht
  · exact absurd (hresp.symm.trans ht.responses) (List.cons_ne_self _ _)
  · obtain ⟨x, hx, hok⟩ := ht.response
    obtain ⟨i0, i1, hdata, hreply⟩ := hok d (List.cons.inj (hx.symm.trans hresp)).1
    exact ⟨wordOf i0 i1, hreply.answers hpipe, by simpa using hdata⟩

end Sys2Proof.Machine

namespace Sys2Proof

open Machine (wireWords)

/-! The decoder and the encoder of 30_encoding.md, at each of their two levels: a request word is read by its two
fields, a wire word by all of its bits, and a byte list is one or the other. -/

section
variable (r : Sel)

@[simp] theorem decodeHreq_packHreq_encode : decodeHreq (packHreq 0#3 r) = withSelector .encode r := by
  simp [decodeHreq]

@[simp] theorem decodeHreq_packHreq_execute : decodeHreq (packHreq 1#3 r) = withSelector .execute r := by
  simp [decodeHreq]

@[simp] theorem decodeHreq_packHreq_readU16 : decodeHreq (packHreq 2#3 r) = withSelector .readU16 r := by
  simp [decodeHreq]

@[simp] theorem decodeHreq_packHreq_diagGain : decodeHreq (packHreq 3#3 r) = .ok (.diagGain r) := by
  simp [decodeHreq]

@[simp] theorem decodeHreq_packHreq_magnitude : decodeHreq (packHreq 4#3 r) = .ok (.magnitude r) := by
  simp [decodeHreq]

@[simp] theorem decodeHreq_packHreq_angle : decodeHreq (packHreq 5#3 r) = .ok (.angle r) := by
  simp [decodeHreq]

@[simp] theorem decodeHreq_packHreq_six : decodeHreq (packHreq 6#3 r) = .error .reservedOperation := by
  simp [decodeHreq]

@[simp] theorem decodeHreq_packHreq_seven : decodeHreq (packHreq 7#3 r) = .error .reservedOperation := by
  simp [decodeHreq]

end

/-- A byte with bits 7:6 clear is the request word in its low six bits (R89, R95). -/
theorem decodeBytes_setWidth (w : Hreq) : decodeBytes [w.setWidth 8] = decodeHreq w := by
  have htop : (w.setWidth 8).extractLsb' 6 2 = 0#2 := by revert w; decide
  have hlow : (w.setWidth 8).extractLsb' 0 6 = w := by revert w; decide
  simp only [decodeBytes, htop, hlow, if_true]

theorem decodeBytes_hreqByte (o : OpCode) (r : Sel) : decodeBytes [hreqByte o r] = decodeHreq (packHreq o r) :=
  decodeBytes_setWidth _

/-- Two bytes are the word that is sent as them (R86). -/
theorem decodeBytes_wireBytes (w : Word) : decodeBytes (wireBytes w) = decodeWire w := by
  simp only [decodeBytes, wireBytes, wordOf_hi8_lo8]

/-- Settles O46: the decoder reads the two fields back from a request's byte, and the word back from its two bytes. -/
theorem decodeOfEncode : Obligations.DecodeOfEncode := by
  intro i hi
  cases i with
  | encode r | execute r | readU16 r =>
    simpa [encode, decodeBytes_hreqByte, withSelector_ok, Instr.wf] using hi
  | diagGain r | magnitude r | angle r => simp [encode, decodeBytes_hreqByte]
  | rdClearErrorFlag | rdProgrammingControl | rdOtpZeroPosHigh | rdOtpZeroPosLow | rdDiagAgc | rdMagnitude
  | rdAngle | nop => rw [encode, decodeBytes_wireBytes, decodeWire]

/-- What the decoder accepts is one byte that holds a request word, or the two bytes of a wire word (R95). -/
theorem decodeBytes_ok {bs : List Byte} {i : Instr} (h : decodeBytes bs = .ok i) :
    (∃ w : Hreq, bs = [w.setWidth 8] ∧ decodeHreq w = .ok i) ∨ (∃ w, bs = wireBytes w ∧ decodeWire w = .ok i) := by
  have hlow : ∀ b : Byte, b.extractLsb' 6 2 = 0#2 → b = (b.extractLsb' 0 6).setWidth 8 := by decide
  unfold decodeBytes at h
  split at h
  · next b =>
    split at h
    · next htop => exact .inl ⟨_, congrArg ([·]) (hlow b htop), h⟩
    · cases h
  · next b0 b1 => exact .inr ⟨_, by simp [wireBytes], h⟩
  · cases h

theorem hreqByte_hreqOp_hreqSel (w : Hreq) : hreqByte (hreqOp w) (hreqSel w) = w.setWidth 8 := by
  rw [hreqByte, packHreq_hreqOp_hreqSel]

/-- A request word that decodes is well formed and is the byte its instruction encodes to. -/
theorem encode_of_decodeHreq {w : Hreq} {i : Instr} (h : decodeHreq w = .ok i) :
    i.wf = true ∧ encode i = [w.setWidth 8] := by
  rw [← hreqByte_hreqOp_hreqSel w]
  rcases decodeHreq_ok h with ⟨ho, h7, rfl⟩ | ⟨ho, h7, rfl⟩ | ⟨ho, h7, rfl⟩ | ⟨ho, rfl⟩ | ⟨ho, rfl⟩ | ⟨ho, rfl⟩
  all_goals simp [encode, Instr.wf, *]

/-- A wire word that decodes is one of the eight (R93), and its instruction encodes to its two bytes. -/
theorem encode_of_decodeWire {w : Word} {i : Instr} (h : decodeWire w = .ok i) :
    i.wf = true ∧ encode i = wireBytes w ∧ w ∈ wireWords := by
  unfold decodeWire at h
  split at h <;> cases h <;> exact ⟨rfl, rfl, by decide⟩

/-- Settles O47: at either level the bits that the decoder read are those that the encoder writes. -/
theorem encodeOfDecode : Obligations.EncodeOfDecode := by
  intro bs i h
  rcases decodeBytes_ok h with ⟨w, rfl, hw⟩ | ⟨w, rfl, hw⟩
  · exact encode_of_decodeHreq hw
  · obtain ⟨hwf, henc, -⟩ := encode_of_decodeWire hw
    exact ⟨hwf, henc⟩

/-- Settles O48: the decoder evaluates to the tables' reading on each of the twelve words. -/
theorem specWordsDecode : Obligations.SpecWordsDecode :=
  ⟨rfl, rfl, rfl, rfl, rfl, rfl, rfl, rfl, rfl, rfl, rfl, rfl⟩

end Sys2Proof

namespace Sys2Proof.Machine

/-! Illegal requests (30_encoding.md R92), the words on the outgoing wire (R93), the response (R91) and the operations
without semantics of their own (R97). -/

/-- The codes of an operation or of a selector field. -/
theorem threeBits_cases (x : BitVec 3) :
    x = 0#3 ∨ x = 1#3 ∨ x = 2#3 ∨ x = 3#3 ∨ x = 4#3 ∨ x = 5#3 ∨ x = 6#3 ∨ x = 7#3 := by
  revert x; decide

section
variable {s : State}

/-- Illegal is what the decoder refuses: the two fields of the word decide both. -/
theorem illegalRequest_iff_not_decodes (w : Hreq) : illegalRequest w = true ↔ ¬ ∃ i, decodeHreq w = .ok i := by
  obtain ⟨o, r, rfl⟩ : ∃ o r, w = packHreq o r := ⟨_, _, (packHreq_hreqOp_hreqSel w).symm⟩
  rcases threeBits_cases o with rfl | rfl | rfl | rfl | rfl | rfl | rfl | rfl
  all_goals simp [illegalRequest, withSelector_ok]

/-- Row T0: an idle engine consumes an illegal request, answers `Illegal` and does nothing else. -/
theorem step_illegalRequest {w : Hreq} {rest : List Hreq} (hq : s.seq = .idle) (hr : s.requests = w :: rest)
    (hw : illegalRequest w = true) :
    step s = .next { s with requests := rest, responses := .illegal :: s.responses } := by
  cases hd : decodeHreq w with
  | ok i => exact absurd ⟨i, hd⟩ ((illegalRequest_iff_not_decodes w).mp hw)
  | error e => simpa [State.respond, State.takeRequest, ← hq] using step_of_row (.refuse w rest e hq hr hd)

end

/-- Settles O9: the illegal words are counted over all 64, and they are those that take row T0. -/
theorem illegalRequestsAreRefused : Obligations.IllegalRequestsAreRefused :=
  ⟨by decide, by decide, illegalRequest_iff_not_decodes, fun _ _ _ => step_illegalRequest⟩

section
variable {r : Sel} {w : Word}

/-- The table of command words (R22, R87), inverted. -/
theorem commandWord_cases (h : commandWord r = some w) :
    (r = 0#3 ∧ w = 0x4001#16) ∨ (r = 1#3 ∧ w = 0xC003#16) ∨ (r = 2#3 ∧ w = 0x4016#16) ∨ (r = 3#3 ∧ w = 0xC017#16) ∨
    (r = 4#3 ∧ w = 0x7FFD#16) ∨ (r = 5#3 ∧ w = 0x7FFE#16) ∨ (r = 6#3 ∧ w = 0xFFFF#16) := by
  rcases threeBits_cases r with rfl | rfl | rfl | rfl | rfl | rfl | rfl | rfl <;> simp_all

/-- The words of R88 are the no-op and the command words of the registers. -/
theorem mem_wireWords_iff : w ∈ wireWords ↔ w = nopWord ∨ ∃ r, commandWord r = some w := by
  constructor
  · intro h
    simp only [wireWords, List.mem_cons, List.not_mem_nil, or_false] at h
    rcases h with rfl | rfl | rfl | rfl | rfl | rfl | rfl | rfl
    exacts [.inr ⟨_, commandWord_0⟩, .inr ⟨_, commandWord_1⟩, .inr ⟨_, commandWord_2⟩, .inr ⟨_, commandWord_3⟩,
      .inr ⟨_, commandWord_4⟩, .inr ⟨_, commandWord_5⟩, .inr ⟨_, commandWord_6⟩, .inl rfl]
  · rintro (rfl | ⟨r, h⟩)
    · decide
    · rcases commandWord_cases h with ⟨-, rfl⟩ | ⟨-, rfl⟩ | ⟨-, rfl⟩ | ⟨-, rfl⟩ | ⟨-, rfl⟩ | ⟨-, rfl⟩ | ⟨-, rfl⟩
      all_goals decide

/-- A command word has the read flag set, the address of its register, and even parity (R80 to R83). -/
theorem commandWord_fields (h : commandWord r = some w) :
    w.getLsbD 14 = true ∧ addrOf r = some (w.extractLsb' 0 14) ∧ popcount w % 2 = 0 := by
  rcases commandWord_cases h with ⟨rfl, rfl⟩ | ⟨rfl, rfl⟩ | ⟨rfl, rfl⟩ | ⟨rfl, rfl⟩ | ⟨rfl, rfl⟩ | ⟨rfl, rfl⟩ |
    ⟨rfl, rfl⟩ <;> decide

theorem decodeWire_ok_iff_mem : (∃ i, decodeWire w = .ok i) ↔ w ∈ wireWords := by
  constructor
  · rintro ⟨i, h⟩
    obtain ⟨-, -, hw⟩ := encode_of_decodeWire h
    exact hw
  · intro h
    simp only [wireWords, List.mem_cons, List.not_mem_nil, or_false] at h
    rcases h with rfl | rfl | rfl | rfl | rfl | rfl | rfl | rfl <;> exact ⟨_, rfl⟩

end

section
variable {s t : State} {h : List Entry}

/-- `WireInv` speaks of the calls made, not of their answers. -/
theorem wireInv_iff_calls :
    WireInv h ↔ ∀ o0 o1, Call.transfer o0 o1 ∈ h.map Entry.call → wordOf o0 o1 ∈ wireWords := by
  constructor
  · intro hw o0 o1 hc
    obtain ⟨e, he, hcall⟩ := List.mem_map.mp hc
    cases e with
    | transfer p0 p1 a => cases hcall; exact hw _ _ a he
    | csLow | csHigh => cases hcall
  · intro hc o0 o1 a he
    exact hc o0 o1 (List.mem_map.mpr ⟨_, he, rfl⟩)

@[simp] theorem wireInv_answerSelect (a : SelectAnswer) : WireInv (answerSelect a h) ↔ WireInv h := by
  simp only [wireInv_iff_calls, map_call_answerSelect]

@[simp] theorem wireInv_answerTransfer (a : TransferAnswer) : WireInv (answerTransfer a h) ↔ WireInv h := by
  simp only [wireInv_iff_calls, map_call_answerTransfer]

@[simp] theorem wireInv_csLow : WireInv (Call.csLow.entry :: h) ↔ WireInv h := by
  simp [WireInv, Call.entry]

@[simp] theorem wireInv_csHigh : WireInv (Call.csHigh.entry :: h) ↔ WireInv h := by
  simp [WireInv, Call.entry]

@[simp] theorem wireInv_exchangeOf (w : Word) : WireInv ((exchangeOf w).entry :: h) ↔ w ∈ wireWords ∧ WireInv h := by
  simp only [wireInv_iff_calls, List.map_cons, Entry.call_entry, exchangeOf, List.mem_cons]
  constructor
  · intro hc
    exact ⟨by simpa using hc _ _ (.inl rfl), fun o0 o1 ho => hc o0 o1 (.inr ho)⟩
  · rintro ⟨hw, hc⟩ o0 o1 (ho | ho)
    · cases ho; simpa using hw
    · exact hc o0 o1 ho

/-- A row sends a command word, the no-op, or nothing. -/
theorem Row.wireInv (hrow : Row s t) (hs : WireInv s.history) : WireInv t.history := by
  have hcmd {r : Sel} {cmd : Word} (hc : commandWord r = some cmd) : cmd ∈ wireWords :=
    mem_wireWords_iff.mpr (.inr ⟨r, hc⟩)
  have hnop : nopWord ∈ wireWords := mem_wireWords_iff.mpr (.inl rfl)
  cases hrow with
  | wait | refuse | encode => exact hs
  | failSelect | failTransfer | startExplicit | closeA | openB | closeB | finishImplicit | finishExplicit =>
    simpa using hs
  | startImplicit w rest i o r cmd hq hr hd hi hc => simpa [hcmd hc] using hs
  | command rest cmd hq hr hc => simpa [hcmd hc] using hs
  | nopImplicit | nopExplicit => exact (wireInv_exchangeOf nopWord).mpr ⟨hnop, by simpa using hs⟩

end

section
variable {r : Sel} {w : Word}

/-- Each command word goes out: an engine with chip-select in the transport sends it when `EXECUTE` is asked for. -/
theorem exists_step_sends_commandWord (h : commandWord r = some w) :
    ∃ s t, EngineInv s ∧ step s = .next t ∧ t.history.head? = some (.transfer (hi8 w) (lo8 w) none) := by
  have h7 : r ≠ 7#3 := fun h7 => by simp [h7] at h
  exact ⟨(State.construct false).placeRequest (packHreq 1#3 r), _, engineInv_of_idle rfl rfl,
    step_of_row (.startImplicit _ _ (.execute r) _ _ _ rfl rfl (by simp [withSelector_ok, h7])
      (.inl ⟨rfl, rfl, h7⟩) h rfl), rfl⟩

/-- The no-op goes out in `B_SEL`. -/
theorem exists_step_sends_nopWord :
    ∃ s t, EngineInv s ∧ step s = .next t ∧ t.history.head? = some (.transfer (hi8 nopWord) (lo8 nopWord) none) :=
  ⟨(State.construct true).placeWireWord .nop, _, ⟨nofun, fun _ => rfl, nofun, rfl⟩,
    step_of_row (.nopExplicit _ rfl rfl), rfl⟩

end

/-- Settles O15: the eight words are the no-op and the seven command words, and a row sends one of these or nothing. -/
theorem onlyEightWordsGoOut : Obligations.OnlyEightWordsGoOut := by
  refine ⟨fun s t h => (row_of_step h).wireInv, fun w => decodeWire_ok_iff_mem, by decide, rfl, fun w hw => ?_,
    fun w hw => ?_⟩
  · refine (mem_wireWords_iff.mp hw).imp_right fun ⟨r, hr⟩ => ?_
    obtain ⟨hread, haddr, hparity⟩ := commandWord_fields hr
    exact ⟨hread, ⟨r, haddr⟩, hparity⟩
  · rcases mem_wireWords_iff.mp hw with rfl | ⟨r, hr⟩
    · exact exists_step_sends_nopWord
    · exact exists_step_sends_commandWord hr

section
variable {s t : State}

/-- The payload of a reply as a word (R91): bits 15:14 zero, the 14 bits below them. -/
theorem fields_of_payload (p : BitVec 14) :
    (p.setWidth 16).extractLsb' 14 2 = 0#2 ∧ (p.setWidth 16).extractLsb' 0 14 = p ∧ (p.setWidth 16).toNat ≤ 0x3FFF := by
  have hp : p.setWidth 16 = 0#2 ++ p := BitVec.setWidth_eq_append (by decide)
  refine ⟨?_, ?_, ?_⟩
  · rw [hp]; exact BitVec.extractLsb'_append_eq_left
  · rw [hp]; exact BitVec.extractLsb'_append_eq_right
  · rw [BitVec.toNat_setWidth]; omega

/-- The data of `DIAG_GAIN` (R91): bits 15:12 zero, the nibble, the byte. -/
theorem fields_of_diag_gain (g : BitVec 4) (k : BitVec 8) :
    ((0#4 ++ g) ++ k).extractLsb' 12 4 = 0#4 ∧ ((0#4 ++ g) ++ k).extractLsb' 8 4 = g ∧
    ((0#4 ++ g) ++ k).extractLsb' 0 8 = k ∧ ((0#4 ++ g) ++ k).toNat ≤ 0x0FFF := by
  have htop : ((0#4 ++ g) ++ k).extractLsb' 12 4 = 0#4 := by
    rw [BitVec.extractLsb'_append_eq_of_le (by decide)]; exact BitVec.extractLsb'_append_eq_left
  refine ⟨htop, ?_, BitVec.extractLsb'_append_eq_right, ?_⟩
  · rw [BitVec.extractLsb'_append_eq_of_le (by decide)]; exact BitVec.extractLsb'_append_eq_right
  · have h := congrArg BitVec.toNat htop
    rw [BitVec.extractLsb'_toNat, Nat.shiftRight_eq_div_pow] at h
    simp only [BitVec.toNat_ofNat] at h
    omega

/-- `RES` of the payload operations (R149). -/
theorem completionData_payload {o : OpCode} (ho : o = 2#3 ∨ o = 4#3 ∨ o = 5#3) (b0 b1 : Byte) :
    completionData o b0 b1 = some ((dec14 b0 b1).setWidth 16) := by
  rcases ho with rfl | rfl | rfl <;> rfl

theorem commandWord_of_addrOf {r : Sel} {a : Address} (h : addrOf r = some a) :
    commandWord r = some (encodeAddress a) := by
  rw [commandWord, h, Option.map_some]

/-- A command word has the read flag, the no-op does not (R81, R84). -/
theorem commandWord_ne_nopWord {r : Sel} {w : Word} (h : commandWord r = some w) : w ≠ nopWord := by
  rintro rfl
  obtain ⟨hread, -, -⟩ := commandWord_fields h
  exact absurd hread (by decide)

/-- A `ChipSelect` failure is responded only where the answer to a select call is awaited (R202). -/
theorem Row.seq_of_chipSelect {e : ChipSelectError} (h : Row s t)
    (he : t.responses = .err (.chipSelect e) :: s.responses) :
    s.seq = .aSel ∨ s.seq = .aDes ∨ s.seq = .bSel ∨ s.seq = .bDes := by
  cases h with
  | failSelect e rest hq => exact hq
  | _ => simp at he

end

/-- Settles O37: each operation's data has its packing, and only a select state answers with a `ChipSelect` failure. -/
theorem responseFormat : Obligations.ResponseFormat := by
  refine ⟨fun d => ⟨rfl, rfl, rfl⟩, fun e => ⟨rfl, rfl, rfl⟩, fun e => ⟨rfl, rfl, rfl⟩, ⟨rfl, rfl, rfl⟩, fun x => ?_,
    fun r a ha => ?_, fun b0 b1 => ?_, fun o b0 b1 ho => ?_, fun b0 b1 => ?_, fun s t _ hq h e he => ?_⟩
  · cases x <;> simp [Response.status]
  · have hc := commandWord_of_addrOf ha
    exact ⟨mem_wireWords_iff.mpr (.inr ⟨r, hc⟩), commandWord_ne_nopWord hc⟩
  · exact congrArg some (wordOf_eq_append b0 b1)
  · exact ⟨_, completionData_payload ho b0 b1, fields_of_payload _⟩
  · exact ⟨_, rfl, fields_of_diag_gain _ _⟩
  · have hsel := (row_of_step h).seq_of_chipSelect he
    rcases hq with hq | hq | hq <;> simp [hq] at hsel

/-! `MAGNITUDE` and `ANGLE` (R97): between two runs that differ in the latch `op` only, every row keeps that so, as long
as the two codes have the same `RES`. -/

section
variable {s t : State}

/-- The latch `op` is read at completion only: with another code of the same `RES` there, an engine has the same row. -/
theorem Row.withOp (h : Row s t) {o : OpCode} (ho : s.seq ≠ .idle → completionData o = completionData s.op) :
    ∃ o', Row { s with op := o } { t with op := o' } ∧ (t.seq ≠ .idle → completionData o' = completionData t.op) := by
  cases h with
  | wait hs => exact ⟨o, .wait hs, ho⟩
  | refuse w rest e hq hr hd => exact ⟨o, .refuse w rest e hq hr hd, fun hn => absurd rfl hn⟩
  | encode w rest r cmd hq hr hd hc => exact ⟨0#3, .encode w rest r cmd hq hr hd hc, fun _ => rfl⟩
  | startExplicit w rest i o₁ r cmd hq hr hd hi hc hx =>
    exact ⟨o₁, .startExplicit w rest i o₁ r cmd hq hr hd hi hc hx, fun _ => rfl⟩
  | startImplicit w rest i o₁ r cmd hq hr hd hi hc hx =>
    exact ⟨o₁, .startImplicit w rest i o₁ r cmd hq hr hd hi hc hx, fun _ => rfl⟩
  | command rest cmd hq hr hc => exact ⟨o, .command rest cmd hq hr hc, fun _ => ho (by simp [hq])⟩
  | failSelect e rest hq hr => exact ⟨o, .failSelect e rest hq hr, fun hn => absurd rfl hn⟩
  | closeA i0 i1 rest hq hr hx => exact ⟨o, .closeA i0 i1 rest hq hr hx, fun _ => ho (by simp [hq])⟩
  | nopImplicit i0 i1 rest hq hr hx => exact ⟨o, .nopImplicit i0 i1 rest hq hr hx, fun _ => ho (by simp [hq])⟩
  | failTransfer e rest hq hr => exact ⟨o, .failTransfer e rest hq hr, fun hn => absurd rfl hn⟩
  | openB rest hq hr => exact ⟨o, .openB rest hq hr, fun _ => ho (by simp [hq])⟩
  | nopExplicit rest hq hr => exact ⟨o, .nopExplicit rest hq hr, fun _ => ho (by simp [hq])⟩
  | closeB i0 i1 rest hq hr hx => exact ⟨o, .closeB i0 i1 rest hq hr hx, fun _ => ho (by simp [hq])⟩
  | finishImplicit i0 i1 rest d hq hr hx hd =>
    have hdata := congrFun₂ (ho (by simp [hq])) i0 i1
    exact ⟨o, .finishImplicit i0 i1 rest d hq hr hx (hdata.trans hd), fun hn => absurd rfl hn⟩
  | finishExplicit rest d hq hr hd =>
    have hdata := congrFun₂ (ho (by simp [hq])) s.rxh s.rxl
    exact ⟨o, .finishExplicit rest d hq hr (hdata.trans hd), fun hn => absurd rfl hn⟩

/-- Two codes of the same `RES` in the latch `op` give the same run, but for that latch. -/
theorem SequencerInv.run_withOp (hs : SequencerInv s) {o : OpCode}
    (ho : s.seq ≠ .idle → completionData o = completionData s.op) (n : Nat) :
    mapNext State.dropOp (run n { s with op := o }) = mapNext State.dropOp (run n s) := by
  induction n generalizing s o with
  | zero => rfl
  | succ n ih =>
    obtain ⟨t, ht⟩ := hs.exists_row
    obtain ⟨o', ht', ho'⟩ := ht.withOp ho
    rw [run_succ_of_next (step_of_row ht), run_succ_of_next (step_of_row ht')]
    exact ih (ht.sequencerInv hs) ho'

/-- An idle engine accepts two reads of one register alike, but for the latch `op` (rows T2a, T2b). -/
theorem exists_rows_of_sameRegister {rest : List Hreq} {w w' : Hreq} {i i' : Instr} {o o' : OpCode} {r : Sel}
    (hq : s.seq = .idle) (hd : decodeHreq w = .ok i) (hi : ReadRequest i o r) (hd' : decodeHreq w' = .ok i')
    (hi' : ReadRequest i' o' r) :
    ∃ t, t.op = o ∧ Row { s with requests := w :: rest } t ∧
      Row { s with requests := w' :: rest } { t with op := o' } := by
  obtain ⟨cmd, hc⟩ := exists_commandWord (ne_seven_of_readLatches hi.readLatches)
  rcases Bool.eq_false_or_eq_true s.csExplicit with hx | hx
  · exact ⟨_, rfl, .startExplicit w rest i o r cmd hq rfl hd hi hc hx,
      .startExplicit w' rest i' o' r cmd hq rfl hd' hi' hc hx⟩
  · exact ⟨_, rfl, .startImplicit w rest i o r cmd hq rfl hd hi hc hx,
      .startImplicit w' rest i' o' r cmd hq rfl hd' hi' hc hx⟩

/-- Two reads of one register with the same `RES` have the same run, but for the latch `op`. -/
theorem run_read_eq {rest : List Hreq} {w w' : Hreq} {i i' : Instr} {o o' : OpCode} {r : Sel}
    (hq : s.seq = .idle) (hd : decodeHreq w = .ok i) (hi : ReadRequest i o r) (hd' : decodeHreq w' = .ok i')
    (hi' : ReadRequest i' o' r) (ho : completionData o' = completionData o) (n : Nat) :
    mapNext State.dropOp (run (n + 1) { s with requests := w' :: rest }) =
      mapNext State.dropOp (run (n + 1) { s with requests := w :: rest }) := by
  obtain ⟨t, rfl, ht, ht'⟩ := exists_rows_of_sameRegister (rest := rest) hq hd hi hd' hi'
  rw [run_succ_of_next (step_of_row ht), run_succ_of_next (step_of_row ht')]
  exact (ht.sequencerInv (sequencerInv_of_idle hq)).run_withOp (fun _ => ho) n

end

/-- Settles O31: `MAGNITUDE` and `ANGLE` read the register and have the `RES` of their `READ_U16`; replies with the
status bits set, and with the upper half of the first byte set, tell `READ_U16` and `DIAG_GAIN` from `EXECUTE`. -/
theorem pseudoOperationsExpand : Obligations.PseudoOperationsExpand := by
  have hread (r : Sel) (h7 : r ≠ 7#3) : decodeHreq (packHreq 2#3 r) = .ok (.readU16 r) := by
    simp [withSelector_ok, h7]
  refine ⟨fun n s x rest hq => ?_, fun n s x rest hq => ?_, ⟨0xC0#8, 0#8, by decide⟩, ⟨0xF0#8, 0#8, by decide⟩⟩
  · exact run_read_eq hq (hread 5#3 (by decide)) (.inr (.inl ⟨rfl, rfl, by decide⟩)) (decodeHreq_packHreq_magnitude x)
      (.inr (.inr (.inr (.inl ⟨⟨x, rfl⟩, rfl, rfl⟩)))) rfl n
  · exact run_read_eq hq (hread 6#3 (by decide)) (.inr (.inl ⟨rfl, rfl, by decide⟩)) (decodeHreq_packHreq_angle x)
      (.inr (.inr (.inr (.inr ⟨⟨x, rfl⟩, rfl, rfl⟩)))) rfl n

end Sys2Proof.Machine

namespace Sys2Proof.Machine

/-! The encoder (40_encoder.md): the fold by halving is the parity of the word (R110), as each halving keeps the parity;
`SETPAR` and `ENC` write that parity into bit 15 and leave the other bits as they are (R111, R122). -/

/-- Counting where exactly one of two predicates holds: the positions where both hold drop out in pairs. -/
theorem countP_xor_mod_two {α : Type} (p q : α → Bool) (l : List α) :
    (l.countP fun x => p x ^^ q x) % 2 = (l.countP p + l.countP q) % 2 := by
  induction l with
  | nil => rfl
  | cons x l ih => cases hp : p x <;> cases hq : q x <;> simp [hp, hq] <;> omega

section
variable {m n : Nat}

theorem popcount_append (a : BitVec m) (b : BitVec n) : popcount (a ++ b) = popcount a + popcount b := by
  have hrange : List.range (m + n) = List.range n ++ (List.range m).map (n + ·) := by
    rw [Nat.add_comm, List.range_add]
  have hlow : (List.range n).countP (fun k => (a ++ b).getLsbD k) = popcount b :=
    List.countP_congr fun k hk => by simp [BitVec.getLsbD_append, List.mem_range.mp hk]
  have hhigh : ((List.range m).map (n + ·)).countP (fun k => (a ++ b).getLsbD k) = popcount a := by
    simp [popcount, List.countP_map, Function.comp_def, BitVec.getLsbD_append]
  rw [popcount, hrange, List.countP_append, hlow, hhigh, Nat.add_comm]

theorem popcount_xor_mod_two (a b : BitVec n) : popcount (a ^^^ b) % 2 = (popcount a + popcount b) % 2 := by
  simp only [popcount, BitVec.getLsbD_xor]
  exact countP_xor_mod_two _ _ _

/-- One halving of R110 keeps the parity. -/
theorem popcount_xor_halves_mod_two (w : BitVec (n + n)) :
    popcount (w.extractLsb' n n ^^^ w.extractLsb' 0 n) % 2 = popcount w % 2 := by
  rw [popcount_xor_mod_two, ← popcount_append, BitVec.extractLsb'_append_extractLsb']

end

@[simp] theorem popcount_bit (b : BitVec 1) : popcount b = b.toNat := by
  revert b; decide

/-- `f1` of R110 is the parity of the word: four halvings. -/
theorem fold16_f1_toNat (w : Word) : (fold16 w).f1.toNat = popcount w % 2 :=
  calc (fold16 w).f1.toNat
      = popcount (fold16 w).f1 % 2 := by rw [popcount_bit, Nat.mod_eq_of_lt (fold16 w).f1.isLt]
    _ = popcount (fold16 w).f2 % 2 := popcount_xor_halves_mod_two (n := 1) _
    _ = popcount (fold16 w).f4 % 2 := popcount_xor_halves_mod_two (n := 2) _
    _ = popcount (fold16 w).f8 % 2 := popcount_xor_halves_mod_two (n := 4) _
    _ = popcount w % 2 := popcount_xor_halves_mod_two (n := 8) w

/-- Settles O11: the halvings are the definition, and each of the four keeps the parity. -/
theorem foldIsParity : Obligations.FoldIsParity :=
  ⟨fun w => ⟨rfl, rfl, rfl, rfl, fold16_f1_toNat w⟩, rfl, rfl, rfl, rfl⟩

/-! A word as bit 15 and the fifteen bits below it: `SETPAR` changes the first part only. -/

section
variable (w : Word) (b : BitVec 1) (p : BitVec 15)

theorem getLsbD_15_append : (b ++ p).getLsbD 15 = b.getLsbD 0 := BitVec.getLsbD_append

theorem bit15_cases :
    (w.getLsbD 15 = false ∧ ∃ p : BitVec 15, w = 0#1 ++ p) ∨ (w.getLsbD 15 = true ∧ ∃ p : BitVec 15, w = 1#1 ++ p) := by
  obtain ⟨b, p, rfl⟩ : ∃ (b : BitVec 1) (p : BitVec 15), w = b ++ p :=
    ⟨_, _, (BitVec.extractLsb'_append_extractLsb' (w := 1) (len := 15)).symm⟩
  rcases BitVec.eq_zero_or_eq_one b with rfl | rfl
  · exact .inl ⟨getLsbD_15_append _ p, p, rfl⟩
  · exact .inr ⟨getLsbD_15_append _ p, p, rfl⟩

theorem setPar_append : setPar (b ++ p) = (b ||| (fold16 (b ++ p)).f1) ++ p := by
  have hshift (f : BitVec 1) : f.setWidth 16 <<< 15 = f ++ 0#15 := by revert f; decide
  rw [setPar, hshift]
  exact BitVec.or_append.trans (by rw [BitVec.or_zero])

theorem setPar_clear : setPar (0#1 ++ p) = (fold16 (0#1 ++ p)).f1 ++ p := by
  rw [setPar_append, BitVec.zero_or]

theorem setPar_set : setPar (1#1 ++ p) = 1#1 ++ p := by
  have h (f : BitVec 1) : 1#1 ||| f = 1#1 := by revert f; decide
  rw [setPar_append, h]

/-- The bit written is the parity of the fifteen below it, so the whole word is even. -/
theorem popcount_setPar_clear : popcount (setPar (0#1 ++ p)) % 2 = 0 := by
  have hf : (fold16 (0#1 ++ p)).f1.toNat = popcount p % 2 := by
    rw [fold16_f1_toNat, popcount_append, popcount_bit, BitVec.toNat_zero, Nat.zero_add]
  rw [setPar_clear, popcount_append, popcount_bit, hf]
  omega

/-- `SETPAR` is idempotent (R111): it has left the word as it is, or bit 15 is set. -/
theorem setPar_setPar : setPar (setPar w) = setPar w := by
  rcases bit15_cases w with ⟨-, p, rfl⟩ | ⟨-, p, rfl⟩
  · rcases BitVec.eq_zero_or_eq_one (fold16 (0#1 ++ p)).f1 with hf | hf
    · have h : setPar (0#1 ++ p) = 0#1 ++ p := by rw [setPar_clear, hf]
      rw [h, h]
    · rw [setPar_clear, hf, setPar_set]
  · rw [setPar_set, setPar_set]

end

/-- Settles O12: with bit 15 clear `SETPAR` writes the parity there, with bit 15 set it changes nothing. -/
theorem setParityIsIdempotentAndEven : Obligations.SetParityIsIdempotentAndEven := by
  refine ⟨fun w => rfl, fun w hb => ?_, fun w hb => ?_, setPar_setPar, rfl, rfl, rfl⟩
  · rcases bit15_cases w with ⟨-, p, rfl⟩ | ⟨hb', -⟩
    · exact ⟨popcount_setPar_clear p, fun hf => by rw [setPar_clear, hf]⟩
    · exact absurd (hb.symm.trans hb') (by decide)
  · rcases bit15_cases w with ⟨hb', -⟩ | ⟨-, p, rfl⟩
    · exact absurd (hb.symm.trans hb') (by decide)
    · exact setPar_set p

section
variable (a : Address)

/-- The word that `ENC` gives to `SETPAR` (R112): bit 15 clear, the read flag, the address. -/
theorem readWord_eq_append : 0x4000#16 ||| a.setWidth 16 = 0#1 ++ (1#1 ++ a) := by
  have hflag : 0x4000#16 = 0#1 ++ (1#1 ++ 0#14) := by decide
  have haddr : a.setWidth 16 = 0#1 ++ (0#1 ++ a) := by
    rw [BitVec.setWidth_eq_append (by decide)]
    exact BitVec.append_assoc (x₁ := 0#1) (x₂ := 0#1) (x₃ := a)
  rw [hflag, haddr]
  refine BitVec.or_append.trans (congrArg (0#1 ++ ·) (BitVec.or_append.trans ?_))
  rw [BitVec.zero_or, BitVec.or_zero]

theorem popcount_readWord : popcount (0x4000#16 ||| a.setWidth 16) = popcount a + 1 := by
  rw [readWord_eq_append, popcount_append, popcount_append, popcount_bit, popcount_bit]
  exact (Nat.zero_add _).trans (Nat.add_comm _ _)

/-- The fields of a command word (R80 to R83): the parity bit, the read flag, the address. -/
theorem encodeAddress_eq_append :
    encodeAddress a = (fold16 (0x4000#16 ||| a.setWidth 16)).f1 ++ (1#1 ++ a) := by
  rw [encodeAddress, readWord_eq_append, setPar_clear]

theorem encodeAddress_address : (encodeAddress a).extractLsb' 0 14 = a := by
  rw [encodeAddress_eq_append]
  exact (BitVec.extractLsb'_append_eq_of_add_le (by decide)).trans BitVec.extractLsb'_append_eq_right

theorem encodeAddress_readFlag : (encodeAddress a).getLsbD 14 = true := by
  rw [encodeAddress_eq_append, BitVec.getLsbD_append, BitVec.getLsbD_append]
  rfl

theorem encodeAddress_parity :
    ((encodeAddress a).getLsbD 15).toNat = popcount (0x4000#16 ||| a.setWidth 16) % 2 := by
  have hbit (f : BitVec 1) : (f.getLsbD 0).toNat = f.toNat := by revert f; decide
  rw [encodeAddress_eq_append, getLsbD_15_append, hbit, fold16_f1_toNat]

theorem encodeAddress_parity_of_address : ((encodeAddress a).getLsbD 15).toNat = (popcount a + 1) % 2 := by
  rw [encodeAddress_parity, popcount_readWord]

theorem popcount_encodeAddress : popcount (encodeAddress a) % 2 = 0 := by
  rw [encodeAddress, readWord_eq_append]
  exact popcount_setPar_clear _

end

/-! The count of R122: an even address and the odd one after it differ in one bit, so one of the two has `PAR = 1`. -/

/-- A predicate that holds of exactly one in each pair `2 * k`, `2 * k + 1` holds of half the numbers. -/
theorem countP_range_of_pairs {f : Nat → Bool} (hf : ∀ k, f (2 * k + 1) = !f (2 * k)) (n : Nat) :
    (List.range (2 * n)).countP f = n := by
  induction n with
  | zero => rfl
  | succ n ih =>
    rw [Nat.mul_succ, List.range_succ, List.range_succ]
    cases h : f (2 * n) <;> simp [hf, h, ih]

theorem popcount_odd_mod_two (k : Nat) :
    popcount (BitVec.ofNat 14 (2 * k + 1)) % 2 = (popcount (BitVec.ofNat 14 (2 * k)) + 1) % 2 := by
  have hodd : BitVec.ofNat 14 (2 * k + 1) = BitVec.ofNat 14 (2 * k) ^^^ 1#14 := by
    rw [← Nat.xor_one_of_even (even_two_mul k), BitVec.ofNat_xor]
  have hone : popcount 1#14 = 1 := by decide
  rw [hodd, popcount_xor_mod_two, hone]

theorem encodeAddress_parity_odd (k : Nat) :
    (encodeAddress (BitVec.ofNat 14 (2 * k + 1))).getLsbD 15 =
      !(encodeAddress (BitVec.ofNat 14 (2 * k))).getLsbD 15 := by
  have hbit (x y : Bool) : x.toNat = (y.toNat + 1) % 2 → x = !y := by revert x y; decide
  have hodd := encodeAddress_parity_of_address (BitVec.ofNat 14 (2 * k + 1))
  have heven := encodeAddress_parity_of_address (BitVec.ofNat 14 (2 * k))
  have hflip := popcount_odd_mod_two k
  exact hbit _ _ (by omega)

/-- Settles O13: the fields of a command word give (a) to (f), and neighbouring addresses have opposite parity bits. -/
theorem commandWordProperties : Obligations.CommandWordProperties := by
  refine ⟨fun a => ⟨encodeAddress_address a, encodeAddress_readFlag a, encodeAddress_parity a,
    encodeAddress_parity_of_address a, popcount_encodeAddress a, setPar_setPar _⟩, fun a b h => ?_,
    countP_range_of_pairs encodeAddress_parity_odd 8192⟩
  rw [← encodeAddress_address a, h, encodeAddress_address]

section
variable {s : State}

theorem respond_of_idle (hq : s.seq = .idle) (x : Response) :
    s.respond x = { s with responses := x :: s.responses } := by
  rw [State.respond, ← hq]

theorem execEncode_of_commandWord (hq : s.seq = .idle) {r : Sel} {w : Word} (hw : commandWord r = some w) :
    execEncode r s = .next { s with op := 0#3, rsel := r, responses := .ok w :: s.responses } := by
  rcases execEncode_cases r s with ⟨hn, -⟩ | ⟨-, rfl, -⟩ | ⟨w', -, hw', he⟩
  · exact absurd hq hn
  · simp at hw
  · obtain rfl : w' = w := by simpa [hw'] using hw
    exact he.trans (congrArg _ (respond_of_idle (s := s.latch 0#3 r) hq _))

theorem execEncode_seven (hq : s.seq = .idle) :
    execEncode 7#3 s = .next { s with responses := .illegal :: s.responses } := by
  rcases execEncode_cases 7#3 s with ⟨hn, -⟩ | ⟨-, -, he⟩ | ⟨w, -, hw, -⟩
  · exact absurd hq hn
  · rw [he, respond_of_idle hq]
  · simp at hw

theorem exists_addrOf {r : Sel} (h : r ≠ 7#3) : ∃ a, addrOf r = some a := by
  obtain ⟨w, hw⟩ := exists_commandWord h
  obtain ⟨a, ha, -⟩ := Option.map_eq_some_iff.mp hw
  exact ⟨a, ha⟩

end

/-- Settles O16: an idle engine answers `ENCODE` with the selector's command word, and selector 7 has none. -/
theorem encodeRespondsCommandWord : Obligations.EncodeRespondsCommandWord :=
  ⟨fun _ _ _ hq ha => execEncode_of_commandWord hq (commandWord_of_addrOf ha), fun _ _ _ h7 => exists_addrOf h7,
    fun _ hq => execEncode_seven hq, fun _ hq => execEncode_of_commandWord hq commandWord_6⟩

/-- Settles O17: each command word is `sendCommand` of its selector, which makes the exchange where it is due. -/
theorem commandWordsAreSent : Obligations.CommandWordsAreSent := by
  intro s hs
  have hturn := commandTurn_iff.mpr hs
  exact ⟨fun hr => sendCommand_of_turn hturn hr commandWord_0, fun hr => sendCommand_of_turn hturn hr commandWord_1,
    fun hr => sendCommand_of_turn hturn hr commandWord_2, fun hr => sendCommand_of_turn hturn hr commandWord_3,
    fun hr => sendCommand_of_turn hturn hr commandWord_4, fun hr => sendCommand_of_turn hturn hr commandWord_5,
    fun hr => sendCommand_of_turn hturn hr commandWord_6⟩

/-- Settles O18: the no-op is `sendNop`, which makes the exchange of two zero bytes where it is due. -/
theorem noOpIsSent : Obligations.NoOpIsSent :=
  fun _ hs => sendNop_of_turn (nopTurn_iff.mpr hs)

/-- Settles O19: `sendCommand` refuses out of turn or with another selector latched, `sendNop` out of turn. -/
theorem wireWordsOutOfTurnAreRefused : Obligations.WireWordsOutOfTurnAreRefused := by
  refine ⟨fun s i r hi hs => ?_, fun s hs => ?_⟩
  · have hdue : ¬ (s.commandTurn = true ∧ s.rsel = r) := fun ⟨ht, hr⟩ =>
      hs.elim (fun hne => hne hr) fun hnot => hnot (commandTurn_iff.mp ht)
    have hexec : exec i s = sendCommand r s := by
      rcases hi with ⟨rfl, rfl⟩ | ⟨rfl, rfl⟩ | ⟨rfl, rfl⟩ | ⟨rfl, rfl⟩ | ⟨rfl, rfl⟩ | ⟨rfl, rfl⟩ | ⟨rfl, rfl⟩ <;> rfl
    rw [hexec, sendCommand_out_of_turn hdue]
  · exact sendNop_out_of_turn (Bool.eq_false_iff.mpr fun ht => hs (nopTurn_iff.mp ht))

end Sys2Proof.Machine

namespace Sys2Proof.Machine

/-! Where a step stops, said once beside `Row`: the rows and the stops together are everything a step can be. -/

section
variable {s t : State} {f : Fault}

/-- The states and inputs at which the machine faults (log entries 6 and 7). -/
inductive Stop (s : State) : Fault → Prop where
  | reserved (hq : s.seq = .reserved) : Stop s .seqReserved
  | command (rest : List SelectAnswer) (hq : s.seq = .aSel) (hr : s.selectAnswers = .ok :: rest)
      (hc : commandWord s.rsel = none) : Stop s .noCommandWord
  | finishImplicit (i0 i1 : Byte) (rest : List TransferAnswer) (hq : s.seq = .bXfer)
      (hr : s.transferAnswers = .ok i0 i1 :: rest) (hx : s.csExplicit = false)
      (hd : completionData s.op i0 i1 = none) : Stop s .noCompletion
  | finishExplicit (rest : List SelectAnswer) (hq : s.seq = .bDes) (hr : s.selectAnswers = .ok :: rest)
      (hd : completionData s.op s.rxh s.rxl = none) : Stop s .noCompletion

theorem step_of_stop (h : Stop s f) : step s = .fault f := by
  cases h with
  | reserved hq => simp [step, sequenceStep, hq]
  | command rest hq hr hc => simp [step_aSel hq hr, rowASel, hc, runWireWord_none]
  | finishImplicit i0 i1 rest hq hr hx hd => simp [step_bXfer hq hr, rowBXfer, hx, complete_of_no_data, hd]
  | finishExplicit rest hq hr hd => simp [step_bDes hq hr, rowBDes, complete_of_no_data, hd]

/-- An engine that waits for a select call has a row for every answer, or is at a stop. -/
theorem exists_row_or_stop_of_select {a : SelectAnswer} {rest : List SelectAnswer}
    (hq : s.seq = .aSel ∨ s.seq = .aDes ∨ s.seq = .bSel ∨ s.seq = .bDes) (hr : s.selectAnswers = a :: rest) :
    (∃ t, Row s t) ∨ ∃ f, Stop s f := by
  cases a with
  | err e => exact .inl ⟨_, .failSelect e rest hq hr⟩
  | ok =>
    rcases hq with hq | hq | hq | hq
    · cases hc : commandWord s.rsel with
      | none => exact .inr ⟨_, .command rest hq hr hc⟩
      | some cmd => exact .inl ⟨_, .command rest cmd hq hr hc⟩
    · exact .inl ⟨_, .openB rest hq hr⟩
    · exact .inl ⟨_, .nopExplicit rest hq hr⟩
    · cases hd : completionData s.op s.rxh s.rxl with
      | none => exact .inr ⟨_, .finishExplicit rest hq hr hd⟩
      | some d => exact .inl ⟨_, .finishExplicit rest d hq hr hd⟩

/-- An engine that waits for an exchange has a row for every answer, or is at a stop. -/
theorem exists_row_or_stop_of_transfer {a : TransferAnswer} {rest : List TransferAnswer}
    (hq : s.seq = .aXfer ∨ s.seq = .bXfer) (hr : s.transferAnswers = a :: rest) :
    (∃ t, Row s t) ∨ ∃ f, Stop s f := by
  cases a with
  | err e => exact .inl ⟨_, .failTransfer e rest hq hr⟩
  | ok i0 i1 =>
    rcases hq with hq | hq <;> cases hx : s.csExplicit
    · exact .inl ⟨_, .nopImplicit i0 i1 rest hq hr hx⟩
    · exact .inl ⟨_, .closeA i0 i1 rest hq hr hx⟩
    · cases hd : completionData s.op i0 i1 with
      | none => exact .inr ⟨_, .finishImplicit i0 i1 rest hq hr hx hd⟩
      | some d => exact .inl ⟨_, .finishImplicit i0 i1 rest d hq hr hx hd⟩
    · exact .inl ⟨_, .closeB i0 i1 rest hq hr hx⟩

/-- Every state takes a row or is at a stop. -/
theorem exists_row_or_stop (s : State) : (∃ t, Row s t) ∨ ∃ f, Stop s f := by
  rcases step_cases s with ⟨hs, -⟩ | ⟨hq, -⟩ | ⟨_, _, hq, hr, -⟩ | ⟨_, _, hq, hr, -⟩ | ⟨_, _, hq, hr, -⟩ |
    ⟨_, _, hq, hr, -⟩ | ⟨_, _, hq, hr, -⟩ | ⟨_, _, hq, hr, -⟩ | ⟨_, _, hq, hr, -⟩
  · exact .inl ⟨s, .wait hs⟩
  · exact .inr ⟨_, .reserved hq⟩
  · exact .inl (exists_row_of_request hq hr)
  · exact exists_row_or_stop_of_select (.inl hq) hr
  · exact exists_row_or_stop_of_transfer (.inl hq) hr
  · exact exists_row_or_stop_of_select (.inr (.inl hq)) hr
  · exact exists_row_or_stop_of_select (.inr (.inr (.inl hq))) hr
  · exact exists_row_or_stop_of_transfer (.inr hq) hr
  · exact exists_row_or_stop_of_select (.inr (.inr (.inr hq))) hr

end

/-! A busy engine does not look at the host port (41_transaction.md R148, R150). -/

section
variable {s t : State} {f : Fault}

theorem starved_withRequests (hb : s.seq ≠ .idle) (q : List Hreq) :
    ({ s with requests := q } : State).starved = s.starved := by
  unfold State.starved
  cases hq : s.seq with
  | idle => exact absurd hq hb
  | _ => rfl

/-- A busy engine has the same row whatever requests wait, and leaves them waiting. -/
theorem Row.withRequests (h : Row s t) (hb : s.seq ≠ .idle) (q : List Hreq) :
    Row { s with requests := q } { t with requests := q } := by
  cases h with
  | wait hs => exact .wait ((starved_withRequests hb q).trans hs)
  | refuse w rest e hq => exact absurd hq hb
  | encode w rest r cmd hq => exact absurd hq hb
  | startExplicit w rest i o r cmd hq => exact absurd hq hb
  | startImplicit w rest i o r cmd hq => exact absurd hq hb
  | command rest cmd hq hr hc => exact .command rest cmd hq hr hc
  | failSelect e rest hq hr => exact .failSelect e rest hq hr
  | closeA i0 i1 rest hq hr hx => exact .closeA i0 i1 rest hq hr hx
  | nopImplicit i0 i1 rest hq hr hx => exact .nopImplicit i0 i1 rest hq hr hx
  | failTransfer e rest hq hr => exact .failTransfer e rest hq hr
  | openB rest hq hr => exact .openB rest hq hr
  | nopExplicit rest hq hr => exact .nopExplicit rest hq hr
  | closeB i0 i1 rest hq hr hx => exact .closeB i0 i1 rest hq hr hx
  | finishImplicit i0 i1 rest d hq hr hx hd => exact .finishImplicit i0 i1 rest d hq hr hx hd
  | finishExplicit rest d hq hr hd => exact .finishExplicit rest d hq hr hd

theorem Stop.withRequests (h : Stop s f) (q : List Hreq) : Stop { s with requests := q } f := by
  cases h with
  | reserved hq => exact .reserved hq
  | command rest hq hr hc => exact .command rest hq hr hc
  | finishImplicit i0 i1 rest hq hr hx hd => exact .finishImplicit i0 i1 rest hq hr hx hd
  | finishExplicit rest hq hr hd => exact .finishExplicit rest hq hr hd

theorem step_withRequests (hb : s.seq ≠ .idle) (q : List Hreq) :
    step { s with requests := q } = mapNext (fun t => { t with requests := q }) (step s) := by
  rcases exists_row_or_stop s with ⟨t, ht⟩ | ⟨f, hf⟩
  · rw [step_of_row ht, step_of_row (ht.withRequests hb q), mapNext]
  · rw [step_of_stop hf, step_of_stop (hf.withRequests q), mapNext]

/-- Without its input the engine waits, however long the run (R150). -/
theorem run_of_starved (hs : s.starved = true) (n : Nat) : run n s = .next s := by
  induction n with
  | zero => rfl
  | succ n ih => exact (run_succ_of_next (step_of_row (.wait hs))).trans ih

end

/-- Settles O22: a busy engine without its answer has no row but the wait, whatever waits at the host port. -/
theorem unansweredCallWaitsForever : Obligations.UnansweredCallWaitsForever :=
  fun _ hb hs n q => run_of_starved ((starved_withRequests hb q).trans hs) n

/-! Acceptance (R148), in terms of the instructions. -/

section
variable {s : State} {i : Instr} {o : OpCode} {r : Sel} {w : Word}

theorem acceptRead_explicit (hq : s.seq = .idle) (hc : commandWord r = some w) (hx : s.csExplicit = true) :
    acceptRead o r s = .next ((s.latch o r).issue .csLow .aSel) := by
  simp [acceptRead, hq, hc, hx]

theorem acceptRead_implicit (hq : s.seq = .idle) (hc : commandWord r = some w) (hx : s.csExplicit = false) :
    acceptRead o r s = .next ((s.latch o r).issue (exchangeOf w) .aXfer) := by
  simp [acceptRead, hq, hc, hx]

theorem acceptRead_seven (o : OpCode) (hq : s.seq = .idle) :
    acceptRead o 7#3 s = .next { s with responses := .illegal :: s.responses } := by
  simp [acceptRead, hq, respond_of_idle]

theorem acceptRead_of_busy (o : OpCode) (r : Sel) (hb : s.seq ≠ .idle) : acceptRead o r s = .next s := if_neg hb

theorem execEncode_of_busy (hb : s.seq ≠ .idle) : execEncode r s = .next s := if_neg hb

theorem ReadRequest.exists_commandWord (h : ReadRequest i o r) : ∃ w, commandWord r = some w :=
  Machine.exists_commandWord (ne_seven_of_readLatches h.readLatches)

theorem rowRequest_of_decodes {w : Hreq} (hd : decodeHreq w = .ok i) : rowRequest w s = exec i s := by
  simp only [rowRequest, hd]

end

/-- Settles O7: the request row runs what the decoder reads. -/
theorem stepRunsDecodedRequest : Obligations.StepRunsDecodedRequest :=
  fun _ _ _ _ hq hr hd => (step_idle hq hr).trans (rowRequest_of_decodes hd)

/-- Settles O10: each host operation is `execEncode` or `acceptRead`, and a busy engine's row ignores the requests. -/
theorem onlyIdleEngineTakesRequests : Obligations.OnlyIdleEngineTakesRequests := by
  refine ⟨fun s i o r hi hq hx => ?_, fun s i o r hi hq hx => ?_, fun s r h7 hq => ?_, fun s hq i hi => ?_,
    fun s r hb i hi => ?_, fun _ _ _ => step_illegalRequest, fun _ q hb => step_withRequests hb q⟩
  · obtain ⟨w, hc⟩ := hi.exists_commandWord
    exact (hi.exec s).trans (acceptRead_explicit hq hc hx)
  · obtain ⟨w, hc⟩ := hi.exists_commandWord
    exact ⟨w, hc, (hi.exec s).trans (acceptRead_implicit hq hc hx)⟩
  · obtain ⟨w, hc⟩ := exists_commandWord h7
    exact ⟨w, hc, execEncode_of_commandWord hq hc⟩
  · rcases hi with rfl | rfl | rfl
    · exact execEncode_seven hq
    · exact acceptRead_seven 1#3 hq
    · exact acceptRead_seven 2#3 hq
  · rcases hi with rfl | rfl | rfl | rfl | rfl | rfl
    · exact execEncode_of_busy hb
    · exact acceptRead_of_busy 1#3 r hb
    · exact acceptRead_of_busy 2#3 r hb
    · exact acceptRead_of_busy 3#3 4#3 hb
    · exact acceptRead_of_busy 4#3 5#3 hb
    · exact acceptRead_of_busy 5#3 6#3 hb

/-- Settles O20: each clause is a row of R147 that the step takes, with its next state written out. -/
theorem sequencerTable : Obligations.SequencerTable := by
  refine ⟨fun _ _ _ => step_illegalRequest, fun s w rest hq hr hop h7 => ?_,
    fun s w rest i o r hq hr hd hi => ?_, fun _ rest cmd hq hr hc => step_of_row (.command rest cmd hq hr hc),
    fun _ e rest hq hr => step_of_row (.failSelect e rest hq hr),
    fun _ i0 i1 rest hq hr => ⟨fun hx => step_of_row (.closeA i0 i1 rest hq hr hx),
      fun hx => step_of_row (.nopImplicit i0 i1 rest hq hr hx)⟩,
    fun _ e rest hq hr => step_of_row (.failTransfer e rest hq hr),
    fun _ rest hq hr => step_of_row (.openB rest hq hr),
    fun _ rest hq hr => step_of_row (.nopExplicit rest hq hr),
    fun _ i0 i1 rest hq hr => ⟨fun hx => step_of_row (.closeB i0 i1 rest hq hr hx),
      fun hx d hd => step_of_row (.finishImplicit i0 i1 rest d hq hr hx hd)⟩,
    fun _ rest d hq hr hd => step_of_row (.finishExplicit rest d hq hr hd), fun _ hs => step_of_row (.wait hs)⟩
  · have hd : decodeHreq w = .ok (.encode (hreqSel w)) := by simp [decodeHreq, hop, withSelector_ok, h7]
    obtain ⟨cmd, hc⟩ := exists_commandWord h7
    exact ⟨cmd, hc, (stepRunsDecodedRequest s w rest _ hq hr hd).trans
      (execEncode_of_commandWord (s := s.takeRequest rest) hq hc)⟩
  · obtain ⟨cmd, hc⟩ := hi.exists_commandWord
    exact ⟨fun hx => step_of_row (.startExplicit w rest i o r cmd hq hr hd hi hc hx),
      fun hx => ⟨cmd, hc, step_of_row (.startImplicit w rest i o r cmd hq hr hd hi hc hx)⟩⟩

/-! The frame of the instructions. -/

section
variable {s t : State}

theorem eq_of_sendCommand {r : Sel} (h : sendCommand r s = .next t) : ∃ c q, t = s.issue c q := by
  unfold sendCommand at h
  split at h
  · cases hc : commandWord r with
    | none => simp [hc] at h
    | some w =>
      rw [hc] at h
      cases h
      exact ⟨_, _, rfl⟩
  · cases h

theorem eq_of_sendNop (h : sendNop s = .next t) : ∃ c q, t = s.issue c q := by
  unfold sendNop at h
  split at h
  · cases h; exact ⟨_, _, rfl⟩
  · cases h

/-- A wire word that is not refused makes one call and does nothing else. -/
theorem eq_of_exec_wireWord {i : Instr} (hi : i = .rdClearErrorFlag ∨ i = .rdProgrammingControl ∨
    i = .rdOtpZeroPosHigh ∨ i = .rdOtpZeroPosLow ∨ i = .rdDiagAgc ∨ i = .rdMagnitude ∨ i = .rdAngle ∨ i = .nop)
    (h : exec i s = .next t) : ∃ c q, t = s.issue c q := by
  rcases hi with rfl | rfl | rfl | rfl | rfl | rfl | rfl | rfl
  on_goal 8 => exact eq_of_sendNop h
  all_goals exact eq_of_sendCommand h

/-- What an instruction can do: nothing, or latch (perhaps what is latched already) and then respond or make a call. -/
inductive Executed (s : State) : State → Prop where
  | unchanged : Executed s s
  | respond (o : OpCode) (r : Sel) (x : Response) : Executed s ((s.latch o r).respond x)
  | issue (o : OpCode) (r : Sel) (c : Call) (q : SeqState) : Executed s ((s.latch o r).issue c q)

theorem executed_of_acceptRead (o : OpCode) (r : Sel) (h : acceptRead o r s = .next t) : Executed s t := by
  rcases acceptRead_cases o r s with ⟨-, e⟩ | ⟨-, -, e⟩ | ⟨w, -, -, -, e⟩ | ⟨w, -, -, -, e⟩ <;> cases e.symm.trans h
  · exact .unchanged
  · exact .respond s.op s.rsel _
  · exact .issue o r _ _
  · exact .issue o r _ _

theorem executed_of_execEncode {r : Sel} (h : execEncode r s = .next t) : Executed s t := by
  rcases execEncode_cases r s with ⟨-, e⟩ | ⟨-, -, e⟩ | ⟨w, -, -, e⟩ <;> cases e.symm.trans h
  · exact .unchanged
  · exact .respond s.op s.rsel _
  · exact .respond 0#3 r _

theorem executed_of_exec {i : Instr} (h : exec i s = .next t) : Executed s t := by
  cases i with
  | encode r => exact executed_of_execEncode h
  | execute r => exact executed_of_acceptRead 1#3 r h
  | readU16 r => exact executed_of_acceptRead 2#3 r h
  | diagGain => exact executed_of_acceptRead 3#3 4#3 h
  | magnitude => exact executed_of_acceptRead 4#3 5#3 h
  | angle => exact executed_of_acceptRead 5#3 6#3 h
  | _ =>
    obtain ⟨c, q, rfl⟩ := eq_of_exec_wireWord (by simp) h
    exact .issue s.op s.rsel c q

/-- `ENCODE` makes no call and leaves the sequencer idle, or busy, as it was (R113). -/
theorem execEncode_frame {r : Sel} (h : execEncode r s = .next t) : t.history = s.history ∧ t.seq = s.seq := by
  rcases execEncode_cases r s with ⟨-, e⟩ | ⟨hq, -, e⟩ | ⟨w, hq, -, e⟩ <;> cases e.symm.trans h
  · exact ⟨rfl, rfl⟩
  · exact ⟨rfl, hq.symm⟩
  · exact ⟨rfl, hq.symm⟩

end

/-- Settles O41: an instruction latches, responds and makes calls; none of these writes what the frame keeps. -/
theorem instructionFrame : Obligations.InstructionFrame := by
  refine ⟨fun i s t h => ?_, fun r s t h => execEncode_frame h, fun s t i hi h => ?_⟩
  · cases executed_of_exec h with
    | unchanged | respond | issue => simp
  · obtain ⟨c, q, rfl⟩ := eq_of_exec_wireWord hi h
    exact ⟨rfl, rfl, rfl⟩

/-! The select line (R143; 10_state.md R30). -/

section
variable {s t : State}

@[simp] theorem selectLevel_entry (c : Call) (h : List Entry) : selectLevel (c.entry :: h) = selectLevel h := by
  cases c <;> rfl

@[simp] theorem selectLevel_answerTransfer (a : TransferAnswer) (h : List Entry) :
    selectLevel (answerTransfer a h) = selectLevel h := by
  unfold answerTransfer
  split <;> rfl

/-- The outstanding call is the latest in the history (R62, R66). -/
theorem EngineInv.history_of_outstanding (hs : EngineInv s) {c : Call} (hc : s.outstanding = some c) :
    ∃ h, s.history = c.entry :: h := by
  obtain ⟨h, hh, -⟩ := (historyMatches_iff_of_outstanding hc).mp hs.oneCall
  exact ⟨h, hh⟩

/-- The line is low once the outstanding `CsLow` is answered `Ok`. -/
theorem EngineInv.selectLevel_csLow (hs : EngineInv s) (hc : s.outstanding = some .csLow) :
    selectLevel (answerSelect .ok s.history) = .low := by
  obtain ⟨h, hh⟩ := hs.history_of_outstanding hc
  rw [hh]; rfl

/-- The line is high once the outstanding `CsHigh` is answered `Ok`. -/
theorem EngineInv.selectLevel_csHigh (hs : EngineInv s) (hc : s.outstanding = some .csHigh) :
    selectLevel (answerSelect .ok s.history) = .high := by
  obtain ⟨h, hh⟩ := hs.history_of_outstanding hc
  rw [hh]; rfl

theorem lineInv_of_aSel (hq : s.seq = .aSel) : LineInv s where
  asserted _ h := by simp [hq] at h
  between _ h := by simp [hq] at h

theorem lineInv_of_implicit (hx : s.csExplicit = false) : LineInv s where
  asserted h := by simp [hx] at h
  between h := by simp [hx] at h

theorem lineInv_of_low (hq : s.seq ≠ .bSel) (hl : selectLevel s.history = .low) : LineInv s :=
  ⟨fun _ _ => hl, fun _ h => absurd h hq⟩

theorem lineInv_of_high (hq : s.seq = .bSel) (hl : selectLevel s.history = .high) : LineInv s :=
  ⟨fun _ h => by simp [hq] at h, fun _ _ => hl⟩

/-- Every row keeps the line where the transactions have it. -/
theorem Row.lineInv (h : Row s t) (hs : EngineInv s) (hl : LineInv s) : LineInv t := by
  cases h with
  | wait => exact hl
  | refuse | encode | failSelect | failTransfer | finishImplicit | finishExplicit => exact lineInv_of_idle rfl
  | startExplicit => exact lineInv_of_aSel rfl
  | startImplicit w rest i o r cmd hq hr hd hi hc hx => exact lineInv_of_implicit hx
  | nopImplicit i0 i1 rest hq hr hx => exact lineInv_of_implicit hx
  | command rest cmd hq =>
    exact lineInv_of_low nofun (by simpa using hs.selectLevel_csLow (by simp [State.outstanding, hq]))
  | closeA i0 i1 rest hq hr hx => exact lineInv_of_low nofun (by simpa using hl.asserted hx (.inl hq))
  | openB rest hq =>
    exact lineInv_of_high rfl (by simpa using hs.selectLevel_csHigh (by simp [State.outstanding, hq]))
  | nopExplicit rest hq =>
    exact lineInv_of_low nofun (by simpa using hs.selectLevel_csLow (by simp [State.outstanding, hq]))
  | closeB i0 i1 rest hq hr hx =>
    exact lineInv_of_low nofun (by simpa using hl.asserted hx (.inr (.inr (.inl hq))))

end

/-- Settles O4: a row drives the line low before each exchange and high between the two, or leaves it. -/
theorem selectLineFollowsTransactions : Obligations.SelectLineFollowsTransactions :=
  fun _ _ hs hl h => (row_of_step h).lineInv hs hl

end Sys2Proof.Machine

namespace Sys2Proof.Machine

/-! The sequencer and the procedure of R140 (R151). The machine, waiting for a call of the read accepted in `s₀`, does
what remains of the procedure from that call on; proved for one call, then composed along the read. -/

section
variable {s₀ s t u : State} {past : List Entry} {data : Byte → Byte → Word} {tr : ReadTrace} {n : Nat}

theorem run_of_row (h : Row s t) (n : Nat) : run (n + 1) s = run n t := run_succ_of_next (step_of_row h)

/-- The read accepted in `s₀` is in progress in `s`: what no row of it writes is as it was. -/
structure ReadFrom (s₀ s : State) : Prop where
  strap : s.csExplicit = s₀.csExplicit
  requests : s.requests = s₀.requests
  op : s.op = s₀.op
  rsel : s.rsel = s₀.rsel
  responses : s.responses = s₀.responses

theorem ReadFrom.refl (s₀ : State) : ReadFrom s₀ s₀ := ⟨rfl, rfl, rfl, rfl, rfl⟩

theorem ReadFrom.issue (h : ReadFrom s₀ s) (c : Call) (q : SeqState) : ReadFrom s₀ (s.issue c q) := { h with }

theorem ReadFrom.takeSelect (h : ReadFrom s₀ s) (a : SelectAnswer) (rest : List SelectAnswer) :
    ReadFrom s₀ (s.takeSelect a rest) := { h with }

theorem ReadFrom.takeTransfer (h : ReadFrom s₀ s) (a : TransferAnswer) (rest : List TransferAnswer) :
    ReadFrom s₀ (s.takeTransfer a rest) := { h with }

theorem ReadFrom.latchReply (h : ReadFrom s₀ s) (i0 i1 : Byte) : ReadFrom s₀ (s.latchReply i0 i1) := { h with }

/-- The read accepted in `s₀` stands in `t` as the procedure's end says: responded `data` of the reply, or the failure,
or waiting with nothing responded (R140, R149, R150). -/
def EndsWith (s₀ t : State) (data : Byte → Byte → Word) : ReadEnd → Prop
  | .done b0 b1 => t.seq = .idle ∧ t.rxh = b0 ∧ t.rxl = b1 ∧ t.responses = .ok (data b0 b1) :: s₀.responses
  | .failed c => t.seq = .idle ∧ t.responses = .err c :: s₀.responses
  | .waiting => t.seq ≠ .idle ∧ t.responses = s₀.responses ∧ step t = .next t

/-- The read accepted in `s₀` has come, in `t`, to where the procedure's trace `tr` ends; `past` is the record of the
calls made before those of `tr`. -/
structure TraceEnd (s₀ : State) (past : List Entry) (data : Byte → Byte → Word) (tr : ReadTrace) (t : State) : Prop where
  strap : t.csExplicit = s₀.csExplicit
  requests : t.requests = s₀.requests
  op : t.op = s₀.op
  rsel : t.rsel = s₀.rsel
  history : t.history = tr.calls.reverse ++ past
  selectAnswers : t.selectAnswers = tr.left.select
  transferAnswers : t.transferAnswers = tr.left.transfer
  finish : EndsWith s₀ t data tr.finish

/-- From `s` the machine follows the procedure's trace `tr` to its end, within `n` steps. -/
def Follows (n : Nat) (s₀ s : State) (past : List Entry) (data : Byte → Byte → Word) (tr : ReadTrace) : Prop :=
  ∃ m t, m ≤ n ∧ run m s = .next t ∧ TraceEnd s₀ past data tr t

theorem TraceEnd.follows (h : TraceEnd s₀ past data tr s) : Follows n s₀ s past data tr :=
  ⟨0, s, n.zero_le, rfl, h⟩

/-- A row that ends the trace's first call `e` with its answer, and then what remains of the trace. -/
theorem Follows.after {e : Entry} (h : Follows n s₀ u (e :: past) data tr) (hrow : Row s u) :
    Follows (n + 1) s₀ s past data (tr.after e) := by
  obtain ⟨m, t, hm, hrun, ht⟩ := h
  exact ⟨m + 1, t, Nat.succ_le_succ hm, (run_of_row hrow m).trans hrun,
    { ht with history := by simpa [ReadTrace.after] using ht.history }⟩

/-- A row that ends the trace. -/
theorem TraceEnd.follows_of_row (h : TraceEnd s₀ past data tr t) (hrow : Row s t) : Follows (n + 1) s₀ s past data tr :=
  ⟨1, t, Nat.le_add_left 1 n, run_of_row hrow 0, h⟩

/-- The machine, waiting for a select call, follows the procedure's `mk() or raise ChipSelect` if it follows what the
procedure does after an `Ok`. -/
theorem ReadFrom.follows_callSelect (h : ReadFrom s₀ s) {mk : Option SelectAnswer → Entry}
    (hmk : mk = .csLow ∨ mk = .csHigh) {k : Answers → ReadTrace}
    (hq : s.seq = .aSel ∨ s.seq = .aDes ∨ s.seq = .bSel ∨ s.seq = .bDes) (hh : s.history = mk none :: past)
    (hok : ∀ rest, s.selectAnswers = .ok :: rest →
      ∃ u, Row s u ∧ Follows n s₀ u (mk (some .ok) :: past) data (k ⟨rest, s.transferAnswers⟩)) :
    Follows (n + 1) s₀ s past data (callSelect mk ⟨s.selectAnswers, s.transferAnswers⟩ k) := by
  have hanswer (a : SelectAnswer) : answerSelect a s.history = mk (some a) :: past := by
    rcases hmk with rfl | rfl <;> rw [hh] <;> rfl
  cases hr : s.selectAnswers with
  | nil =>
    have hb : s.seq ≠ .idle := by rcases hq with hq | hq | hq | hq <;> simp [hq]
    have hs : s.starved = true := by rcases hq with hq | hq | hq | hq <;> simp [State.starved, hq, hr]
    exact TraceEnd.follows { h with
      history := hh, selectAnswers := hr, transferAnswers := rfl
      finish := ⟨hb, h.responses, step_of_row (.wait hs)⟩ }
  | cons a rest =>
    cases a with
    | ok =>
      obtain ⟨u, hrow, hu⟩ := hok rest hr
      exact hu.after hrow
    | err e =>
      refine TraceEnd.follows_of_row ?_ (.failSelect e rest hq hr)
      exact { h with
        history := hanswer _, selectAnswers := rfl, transferAnswers := rfl
        finish := ⟨rfl, congrArg _ h.responses⟩ }

/-- The machine, waiting for the exchange of `w`, follows the procedure's `Transfer(hi8(w), lo8(w)) or raise Transport`
if it follows what the procedure does after an `Ok`. -/
theorem ReadFrom.follows_callTransfer (h : ReadFrom s₀ s) {w : Word} {k : Byte → Byte → Answers → ReadTrace}
    (hq : s.seq = .aXfer ∨ s.seq = .bXfer) (hh : s.history = (exchangeOf w).entry :: past)
    (hok : ∀ i0 i1 rest, s.transferAnswers = .ok i0 i1 :: rest →
      ∃ u, Row s u ∧ Follows n s₀ u (.transfer (hi8 w) (lo8 w) (some (.ok i0 i1)) :: past) data
        (k i0 i1 ⟨s.selectAnswers, rest⟩)) :
    Follows (n + 1) s₀ s past data (callTransfer w ⟨s.selectAnswers, s.transferAnswers⟩ k) := by
  have hanswer (a : TransferAnswer) :
      answerTransfer a s.history = .transfer (hi8 w) (lo8 w) (some a) :: past := by
    rw [hh]; rfl
  cases hr : s.transferAnswers with
  | nil =>
    have hb : s.seq ≠ .idle := by rcases hq with hq | hq <;> simp [hq]
    have hs : s.starved = true := by rcases hq with hq | hq <;> simp [State.starved, hq, hr]
    exact TraceEnd.follows { h with
      history := hh, selectAnswers := rfl, transferAnswers := hr
      finish := ⟨hb, h.responses, step_of_row (.wait hs)⟩ }
  | cons a rest =>
    cases a with
    | ok i0 i1 =>
      obtain ⟨u, hrow, hu⟩ := hok i0 i1 rest hr
      exact hu.after hrow
    | err e =>
      refine TraceEnd.follows_of_row ?_ (.failTransfer e rest hq hr)
      exact { h with
        history := hanswer _, selectAnswers := rfl, transferAnswers := rfl
        finish := ⟨rfl, congrArg _ h.responses⟩ }

/-- Row T13 or T11b: the read is done. -/
theorem ReadFrom.follows_done (h : ReadFrom s₀ s) {b0 b1 : Byte} (hh : s.history = past) (h0 : s.rxh = b0)
    (h1 : s.rxl = b1) :
    Follows n s₀ (s.respond (.ok (data b0 b1))) past data
      ⟨[], .done b0 b1, ⟨s.selectAnswers, s.transferAnswers⟩⟩ :=
  TraceEnd.follows { h with
    history := hh, selectAnswers := rfl, transferAnswers := rfl
    finish := ⟨rfl, h0, h1, congrArg _ h.responses⟩ }

variable {cmd : Word}

/-- The machine in `A_SEL` follows the procedure with its brackets: rows T3, T5a, T7, T9, T11a, T13 and their exits. -/
theorem follows_explicit (hx : s₀.csExplicit = true) (hc : commandWord s₀.rsel = some cmd)
    (hd : ∀ b0 b1, completionData s₀.op b0 b1 = some (data b0 b1)) :
    Follows 6 s₀ (s₀.issue .csLow .aSel) s₀.history data
      (executeProcedure true cmd ⟨s₀.selectAnswers, s₀.transferAnswers⟩) := by
  simp only [executeProcedure, transaction, if_true]
  have hASel := (ReadFrom.refl s₀).issue .csLow .aSel
  refine hASel.follows_callSelect (.inl rfl) (.inl rfl) rfl fun ra hr => ⟨_, .command ra cmd rfl hr hc, ?_⟩
  have hAXfer := (hASel.takeSelect .ok ra).issue (exchangeOf cmd) .aXfer
  refine hAXfer.follows_callTransfer (.inl rfl) rfl fun a0 a1 ta hr => ⟨_, .closeA a0 a1 ta rfl hr hx, ?_⟩
  have hADes := (hAXfer.takeTransfer (.ok a0 a1) ta).issue .csHigh .aDes
  refine hADes.follows_callSelect (.inr rfl) (.inr (.inl rfl)) rfl fun rb hr => ⟨_, .openB rb rfl hr, ?_⟩
  have hBSel := (hADes.takeSelect .ok rb).issue .csLow .bSel
  refine hBSel.follows_callSelect (.inl rfl) (.inr (.inr (.inl rfl))) rfl fun rc hr => ⟨_, .nopExplicit rc rfl hr, ?_⟩
  have hBXfer := (hBSel.takeSelect .ok rc).issue (exchangeOf nopWord) .bXfer
  refine hBXfer.follows_callTransfer (.inr rfl) rfl fun b0 b1 tb hr => ⟨_, .closeB b0 b1 tb rfl hr hx, ?_⟩
  have hBDes := ((hBXfer.takeTransfer (.ok b0 b1) tb).latchReply b0 b1).issue .csHigh .bDes
  refine hBDes.follows_callSelect (.inr rfl) (.inr (.inr (.inr rfl))) rfl
    fun rd hr => ⟨_, .finishExplicit rd _ rfl hr (hd b0 b1), ?_⟩
  exact (hBDes.takeSelect .ok rd).follows_done rfl rfl rfl

/-- The machine in `A_XFER`, with chip-select in the transport, follows the procedure: rows T5b, T11b and their exits. -/
theorem follows_implicit (hx : s₀.csExplicit = false)
    (hd : ∀ b0 b1, completionData s₀.op b0 b1 = some (data b0 b1)) :
    Follows 2 s₀ (s₀.issue (exchangeOf cmd) .aXfer) s₀.history data
      (executeProcedure false cmd ⟨s₀.selectAnswers, s₀.transferAnswers⟩) := by
  simp only [executeProcedure, transaction, Bool.false_eq_true, if_false]
  have hAXfer := (ReadFrom.refl s₀).issue (exchangeOf cmd) .aXfer
  refine hAXfer.follows_callTransfer (.inl rfl) rfl fun a0 a1 ta hr => ⟨_, .nopImplicit a0 a1 ta rfl hr hx, ?_⟩
  have hBXfer := (hAXfer.takeTransfer (.ok a0 a1) ta).issue (exchangeOf nopWord) .bXfer
  refine hBXfer.follows_callTransfer (.inr rfl) rfl
    fun b0 b1 tb hr => ⟨_, .finishImplicit b0 b1 tb _ rfl hr hx (hd b0 b1), ?_⟩
  exact ((hBXfer.takeTransfer (.ok b0 b1) tb).latchReply b0 b1).follows_done rfl rfl rfl

variable {w : Hreq} {rest : List Hreq} {i : Instr} {o : OpCode} {r : Sel}

/-- From the state that a read is accepted in, following the procedure is reading as `ReadsAs` says. -/
theorem Follows.readsAs
    (h : Follows n ((s.takeRequest rest).latch o r) u s.history data
      (executeProcedure s.csExplicit cmd ⟨s.selectAnswers, s.transferAnswers⟩))
    (hrow : Row s u) (hn : n ≤ 6) : ReadsAs s rest o r cmd data := by
  obtain ⟨m, t, hm, hrun, ht⟩ := h
  exact ⟨m + 1, t, by omega, (run_of_row hrow m).trans hrun, ht.strap, ht.requests, ht.op, ht.rsel, ht.history,
    ht.selectAnswers, ht.transferAnswers, ht.finish⟩

/-- A reading request, with either strap and whatever is answered, is the procedure of R140 with its command word. -/
theorem readsAs_of_request (hq : s.seq = .idle) (hr : s.requests = w :: rest) (hd : decodeHreq w = .ok i)
    (hi : ReadRequest i o r) (hc : commandWord r = some cmd)
    (hdata : ∀ b0 b1, completionData o b0 b1 = some (data b0 b1)) : ReadsAs s rest o r cmd data := by
  cases hx : s.csExplicit with
  | true =>
    refine Follows.readsAs (n := 6) ?_ (.startExplicit w rest i o r cmd hq hr hd hi hc hx) (by decide)
    rw [hx]
    exact follows_explicit (s₀ := (s.takeRequest rest).latch o r) hx hc hdata
  | false =>
    refine Follows.readsAs (n := 2) ?_ (.startImplicit w rest i o r cmd hq hr hd hi hc hx) (by decide)
    rw [hx]
    exact follows_implicit (s₀ := (s.takeRequest rest).latch o r) hx hdata

end

/-- Settles O23: the reading request has a command word and data for every reply, and it is the procedure's read. -/
theorem sequencerAgreesWithProcedure : Obligations.SequencerAgreesWithProcedure := by
  intro s w rest i o r hq hr hd hi
  obtain ⟨cmd, hc⟩ := hi.exists_commandWord
  choose data hdata using exists_completionData hi.readLatches
  exact ⟨cmd, data, hc, hdata, readsAs_of_request hq hr hd hi hc hdata⟩

/-- Settles O24: `EXECUTE` of a register is the procedure's read with both bytes as its data; selector 7 is illegal. -/
theorem executeReturnsSecondReply : Obligations.ExecuteReturnsSecondReply := by
  refine ⟨fun s rest r a hq hr ha => ?_, fun s rest hq hr => step_illegalRequest hq hr (by decide)⟩
  have h7 : r ≠ 7#3 := by rintro rfl; cases ha
  exact readsAs_of_request hq hr (by simp [withSelector_ok, h7]) (.inl ⟨rfl, rfl, h7⟩) (commandWord_of_addrOf ha)
    fun b0 b1 => congrArg some (wordOf_eq_append b0 b1)

/-- Settles O29: the seven rows of a read with brackets, or the three without, one after the other. (Each row is given
`by exact` so that it is read once the state before it is known.) -/
theorem everyReadCompletes : Obligations.EveryReadCompletes := by
  intro s w rest i o r cmd a0 a1 b0 b1 d ta hq hr hd hi hc hdata hta
  refine ⟨fun hx sa hsa => ?_, fun hx => ?_⟩
  · calc run 7 s
      _ = run 6 _ := run_of_row (.startExplicit w rest i o r cmd hq hr hd hi hc hx) 6
      _ = run 5 _ := run_of_row (by exact .command _ cmd rfl hsa hc) 5
      _ = run 4 _ := run_of_row (by exact .closeA a0 a1 _ rfl hta hx) 4
      _ = run 3 _ := run_of_row (by exact .openB _ rfl rfl) 3
      _ = run 2 _ := run_of_row (by exact .nopExplicit _ rfl rfl) 2
      _ = run 1 _ := run_of_row (by exact .closeB b0 b1 ta rfl rfl hx) 1
      _ = run 0 _ := run_of_row (by exact .finishExplicit sa d rfl rfl hdata) 0
      _ = _ := by rw [run_zero, hq]; rfl
  · calc run 3 s
      _ = run 2 _ := run_of_row (.startImplicit w rest i o r cmd hq hr hd hi hc hx) 2
      _ = run 1 _ := run_of_row (by exact .nopImplicit a0 a1 _ rfl hta hx) 1
      _ = run 0 _ := run_of_row (by exact .finishImplicit b0 b1 ta d rfl rfl hx hdata) 0
      _ = _ := by rw [run_zero, hq]; rfl

end Sys2Proof.Machine

namespace Sys2Proof.Machine

/-! The procedure of R140, call by call: it stops short at a call, or makes every call of the plan (R145, R146). -/

section
variable {x : Bool} {plan more : List Call} {tr : ReadTrace} {e : Entry}

/-- The procedure stops at a call: unanswered (R150), or answered with the failure it then reports (R145). -/
inductive StopsAt (x : Bool) : Entry → ReadEnd → Prop where
  | waiting (c : Call) : StopsAt x c.entry .waiting
  | transfer (o0 o1 : Byte) (e : TransportError) :
      StopsAt x (.transfer o0 o1 (some (.err e))) (.failed (.transport e))
  | csLow (e : ChipSelectError) (hx : x = true) : StopsAt x (.csLow (some (.err e))) (.failed (.chipSelect e))
  | csHigh (e : ChipSelectError) (hx : x = true) : StopsAt x (.csHigh (some (.err e))) (.failed (.chipSelect e))

/-- The trace makes the first calls of the plan, each answered `Ok` but the last, at which it stops. -/
def StopsWithin (x : Bool) (plan : List Call) (tr : ReadTrace) : Prop :=
  ∃ before last, tr.calls = before ++ [last] ∧ before.all Entry.succeeded = true ∧
    tr.calls.map Entry.call <+: plan ∧ StopsAt x last tr.finish

theorem StopsAt.stopsWithin (h : StopsAt x e tr.finish) (hcalls : tr.calls = [e]) {c : Call} (hc : e.call = c) :
    StopsWithin x (c :: plan) tr :=
  ⟨[], e, hcalls, rfl, by simp [hcalls, hc], h⟩

theorem StopsWithin.after (h : StopsWithin x plan tr) (he : e.succeeded = true) :
    StopsWithin x (e.call :: plan) (tr.after e) := by
  obtain ⟨before, last, hcalls, hok, hplan, hstop⟩ := h
  exact ⟨e :: before, last, congrArg (e :: ·) hcalls, by simp [he, hok],
    (List.prefix_cons_inj e.call).mpr hplan, hstop⟩

/-- A select call of the procedure stops it, or is answered `Ok` and the procedure goes on. -/
theorem callSelect_cases {mk : Option SelectAnswer → Entry} (hmk : mk = .csLow ∨ mk = .csHigh) (a : Answers)
    (k : Answers → ReadTrace) (plan : List Call) :
    StopsWithin true ((mk none).call :: plan) (callSelect mk a k) ∨
    ∃ a', callSelect mk a k = (k a').after (mk (some .ok)) := by
  unfold callSelect
  split
  · left
    rcases hmk with rfl | rfl
    · exact (StopsAt.waiting .csLow).stopsWithin rfl rfl
    · exact (StopsAt.waiting .csHigh).stopsWithin rfl rfl
  · exact .inr ⟨_, rfl⟩
  · next e rest _ =>
    left
    rcases hmk with rfl | rfl
    · exact StopsAt.stopsWithin (e := .csLow (some (.err e))) (.csLow e rfl) rfl rfl
    · exact StopsAt.stopsWithin (e := .csHigh (some (.err e))) (.csHigh e rfl) rfl rfl

/-- An exchange of the procedure stops it, or is answered `Ok` and the procedure goes on with the bytes received. -/
theorem callTransfer_cases (x : Bool) (w : Word) (a : Answers) (k : Byte → Byte → Answers → ReadTrace)
    (plan : List Call) :
    StopsWithin x (exchangeOf w :: plan) (callTransfer w a k) ∨
    ∃ i0 i1 a', callTransfer w a k = (k i0 i1 a').after (.transfer (hi8 w) (lo8 w) (some (.ok i0 i1))) := by
  unfold callTransfer
  split
  · exact .inl ((StopsAt.waiting (exchangeOf w)).stopsWithin rfl rfl)
  · exact .inr ⟨_, _, _, rfl⟩
  · next e rest _ => exact .inl ((StopsAt.transfer (hi8 w) (lo8 w) e).stopsWithin rfl rfl)

/-- The calls of one transaction (R143, R144). -/
def bracket (x : Bool) (w : Word) : List Call := if x then [.csLow, exchangeOf w, .csHigh] else [exchangeOf w]

/-- The calls of one transaction that goes through, each with its answer. -/
def bracketEntries (x : Bool) (w : Word) (i0 i1 : Byte) : List Entry :=
  if x then [.csLow (some .ok), .transfer (hi8 w) (lo8 w) (some (.ok i0 i1)), .csHigh (some .ok)]
  else [.transfer (hi8 w) (lo8 w) (some (.ok i0 i1))]

theorem map_call_bracketEntries (w : Word) (i0 i1 : Byte) : (bracketEntries x w i0 i1).map Entry.call = bracket x w := by
  cases x <;> rfl

theorem all_succeeded_bracketEntries (w : Word) (i0 i1 : Byte) :
    (bracketEntries x w i0 i1).all Entry.succeeded = true := by
  cases x <;> rfl

theorem readPlan_eq_append (x : Bool) (cmd : Word) : readPlan x cmd = bracket x cmd ++ bracket x nopWord := by
  cases x <;> rfl

/-- The trace after the calls `l` at its start. -/
def ReadTrace.afterAll (l : List Entry) (tr : ReadTrace) : ReadTrace := l.foldr ReadTrace.after tr

theorem afterAll_calls (l : List Entry) : (tr.afterAll l).calls = l ++ tr.calls := by
  induction l with
  | nil => rfl
  | cons e l ih => exact congrArg (e :: ·) ih

theorem afterAll_finish (l : List Entry) : (tr.afterAll l).finish = tr.finish := by
  induction l with
  | nil => rfl
  | cons e l ih => exact ih

theorem StopsWithin.afterAll (h : StopsWithin x plan tr) {l : List Entry} (hl : l.all Entry.succeeded = true) :
    StopsWithin x (l.map Entry.call ++ plan) (tr.afterAll l) := by
  induction l with
  | nil => exact h
  | cons e l ih =>
    simp only [List.all_cons, Bool.and_eq_true] at hl
    exact (ih hl.2).after hl.1

/-- A transaction stops the procedure at one of its calls, or goes through and the procedure goes on. -/
theorem transaction_cases (x : Bool) (w : Word) (a : Answers) (k : Byte → Byte → Answers → ReadTrace)
    (plan : List Call) :
    StopsWithin x (bracket x w ++ plan) (transaction x w a k) ∨
    ∃ i0 i1 a', transaction x w a k = (k i0 i1 a').afterAll (bracketEntries x w i0 i1) := by
  cases x with
  | false => exact callTransfer_cases false w a k plan
  | true =>
    simp only [transaction, if_true]
    rcases callSelect_cases (.inl rfl) a _ _ with h | ⟨a₁, h⟩
    · exact .inl h
    rw [h]
    rcases callTransfer_cases true w a₁ _ _ with h | ⟨i0, i1, a₂, h⟩
    · exact .inl (h.after rfl)
    rw [h]
    rcases callSelect_cases (.inr rfl) a₂ (k i0 i1) plan with h | ⟨a₃, h⟩
    · exact .inl ((h.after rfl).after rfl)
    · exact .inr ⟨i0, i1, a₃, congrArg (fun t => (ReadTrace.after _ t).after _) h⟩

/-- The procedure stops at a call of the plan, or makes them all and returns the second exchange's reply. -/
theorem executeProcedure_cases (x : Bool) (cmd : Word) (a : Answers) :
    StopsWithin x (readPlan x cmd) (executeProcedure x cmd a) ∨
    ∃ a0 a1 b0 b1, (executeProcedure x cmd a).finish = .done b0 b1 ∧
      (executeProcedure x cmd a).calls = bracketEntries x cmd a0 a1 ++ bracketEntries x nopWord b0 b1 := by
  rw [readPlan_eq_append, ← List.append_nil (bracket x nopWord), executeProcedure]
  rcases transaction_cases x cmd a _ _ with h | ⟨a0, a1, a₁, h⟩
  · exact .inl h
  rw [h]
  rcases transaction_cases x nopWord a₁ _ [] with h | ⟨b0, b1, a₂, h⟩
  · left
    simpa only [map_call_bracketEntries] using h.afterAll (all_succeeded_bracketEntries cmd a0 a1)
  · right
    refine ⟨a0, a1, b0, b1, ?_, ?_⟩
    · rw [h, afterAll_finish, afterAll_finish]
    · rw [h, afterAll_calls, afterAll_calls, List.append_nil]

/-- The call is an exchange. -/
def Call.isExchange : Call → Bool
  | .transfer _ _ => true
  | .csLow | .csHigh => false

theorem length_exchanges (l : List Entry) : (exchanges l).length = (l.map Entry.call).countP Call.isExchange := by
  induction l with
  | nil => rfl
  | cons e l ih => cases e <;> simp [exchanges, Entry.call, Call.isExchange, ih, List.countP_cons, -List.countP_map]

theorem countP_isExchange_readPlan (x : Bool) (cmd : Word) : (readPlan x cmd).countP Call.isExchange = 2 := by
  cases x <;> rfl

theorem length_exchanges_le_two {l : List Entry} {cmd : Word} (h : l.map Entry.call <+: readPlan x cmd) :
    (exchanges l).length ≤ 2 :=
  calc (exchanges l).length
    _ = (l.map Entry.call).countP Call.isExchange := length_exchanges l
    _ ≤ (readPlan x cmd).countP Call.isExchange := h.sublist.countP_le
    _ = 2 := countP_isExchange_readPlan x cmd

theorem map_call_of_success (cmd : Word) (a0 a1 b0 b1 : Byte) :
    (bracketEntries x cmd a0 a1 ++ bracketEntries x nopWord b0 b1).map Entry.call = readPlan x cmd := by
  rw [List.map_append, map_call_bracketEntries, map_call_bracketEntries, readPlan_eq_append]

/-- The exchanges of a read that succeeds: the command word, then the no-op with the reply (R141, R142). -/
theorem exchanges_of_success (cmd : Word) (a0 a1 b0 b1 : Byte) :
    exchanges (bracketEntries x cmd a0 a1 ++ bracketEntries x nopWord b0 b1) =
      [(cmd, some (.ok a0 a1)), (nopWord, some (.ok b0 b1))] := by
  cases x <;> simp [bracketEntries, exchanges]

end

/-- Settles O30: the procedure stops at a call of the plan, or makes them all. -/
theorem callHistoriesOfARead : Obligations.CallHistoriesOfARead := by
  intro x cmd a
  have hcases := executeProcedure_cases x cmd a
  generalize executeProcedure x cmd a = tr at hcases ⊢
  obtain ⟨calls, finish, left⟩ := tr
  rcases hcases with ⟨before, last, hcalls, hok, hplan, hstop⟩ | ⟨a0, a1, b0, b1, hfinish, hcalls⟩
  · refine ⟨hplan, length_exchanges_le_two hplan, ?_⟩
    cases hstop with
    | waiting c => exact ⟨before, c, hok, hcalls⟩
    | transfer o0 o1 e => exact ⟨before, o0, o1, hok, hcalls⟩
    | csLow e hx => exact ⟨hx, before, hok, .inl hcalls⟩
    | csHigh e hx => exact ⟨hx, before, hok, .inr hcalls⟩
  · obtain rfl : finish = .done b0 b1 := hfinish
    obtain rfl : calls = bracketEntries x cmd a0 a1 ++ bracketEntries x nopWord b0 b1 := hcalls
    have hplan := map_call_of_success (x := x) cmd a0 a1 b0 b1
    have hex := exchanges_of_success (x := x) cmd a0 a1 b0 b1
    exact ⟨hplan ▸ List.prefix_rfl, by simp [hex], hplan, by simp [all_succeeded_bracketEntries], by simp [hex],
      nopWord, by simp [hex]⟩

/-! What was answered in Transaction A is in the record only (R141): runs from states that differ in the recorded answers
alone agree in all else, and so in which calls they make. -/

section
variable {s t u v : State}

/-- The calls recorded after a step that does not wait: those before it, and the one outstanding after it (R24). -/
theorem Row.calls_eq (h : Row s t) (hs : s.starved = false) :
    t.history.map Entry.call = t.outstanding.toList ++ s.history.map Entry.call := by
  cases h with
  | wait hw => simp [hw] at hs
  | startImplicit w rest i o r cmd hq hr hd hi hc => simp [State.outstanding, hc]
  | command rest cmd hq hr hc => simp [State.outstanding, hc]
  | _ => simp [State.outstanding]

theorem hideAnswers_eq_calls (s : State) :
    s.hideAnswers = { s.dropHistory with history := (s.history.map Entry.call).map Call.entry } := by
  rw [List.map_map]; rfl

theorem hideAnswers_eq_iff :
    s.hideAnswers = t.hideAnswers ↔
      s.dropHistory = t.dropHistory ∧ s.history.map Entry.call = t.history.map Entry.call := by
  constructor
  · intro h
    have hcalls := congrArg (fun u : State => u.history.map Entry.call) h
    exact ⟨(congrArg State.dropHistory h :), by simpa [State.hideAnswers, Function.comp_def] using hcalls⟩
  · rintro ⟨hdrop, hcalls⟩
    rw [hideAnswers_eq_calls, hideAnswers_eq_calls, hdrop, hcalls]

/-- From two states that differ in the recorded answers only, steps to states that differ in the record only make the
same call. -/
theorem Row.hideAnswers_eq (ht : Row s t) (hv : Row u v) (h : s.hideAnswers = u.hideAnswers)
    (hd : t.dropHistory = v.dropHistory) : t.hideAnswers = v.hideAnswers := by
  obtain ⟨hdrop, hcalls⟩ := hideAnswers_eq_iff.mp h
  have hstarved : s.starved = u.starved := (congrArg State.starved hdrop :)
  have houtstanding : t.outstanding = v.outstanding := (congrArg State.outstanding hd :)
  cases hs : s.starved with
  | true => rw [ht.eq_of_starved hs, hv.eq_of_starved (hstarved ▸ hs), h]
  | false =>
    refine hideAnswers_eq_iff.mpr ⟨hd, ?_⟩
    rw [ht.calls_eq hs, hv.calls_eq (hstarved ▸ hs), houtstanding, hcalls]

/-- Runs from two states that differ in the recorded answers only differ there only. -/
theorem run_hideAnswers_eq (h : s.hideAnswers = t.hideAnswers) (n : Nat) :
    mapNext State.hideAnswers (run n s) = mapNext State.hideAnswers (run n t) := by
  induction n generalizing s t with
  | zero => exact congrArg Host.Outcome.next h
  | succ n ih =>
    rcases mapNext_eq_cases (historyBlind_step.congr (hideAnswers_eq_iff.mp h).1) with
      ⟨a, b, ha, hb, hab⟩ | ⟨r, hs, ht⟩ | ⟨r, hs, ht⟩
    · rw [run_succ_of_next ha, run_succ_of_next hb]
      exact ih ((row_of_step ha).hideAnswers_eq (row_of_step hb) h hab)
    · rw [run_succ_of_fault hs, run_succ_of_fault ht]
    · rw [run_succ_of_refused hs, run_succ_of_refused ht]

/-- Rows T5a and T5b: whatever bytes Transaction A brings, they are recorded and the same call is made. -/
theorem exists_rows_discard (hq : s.seq = .aXfer) (rest : List TransferAnswer) :
    ∃ c q, ∀ a0 a1, Row { s with transferAnswers := .ok a0 a1 :: rest }
      ((s.takeTransfer (.ok a0 a1) rest).issue c q) := by
  rcases Bool.eq_false_or_eq_true s.csExplicit with hx | hx
  · exact ⟨_, _, fun a0 a1 => .closeA (s := { s with transferAnswers := .ok a0 a1 :: rest }) a0 a1 rest hq rfl hx⟩
  · exact ⟨_, _, fun a0 a1 => .nopImplicit (s := { s with transferAnswers := .ok a0 a1 :: rest }) a0 a1 rest hq rfl hx⟩

end

/-- Settles O32: the command word's rows send it high byte first, and Transaction A's bytes go to the record only. -/
theorem firstReplyIsDiscarded : Obligations.FirstReplyIsDiscarded := by
  refine ⟨fun s w rest i o r cmd hq hx hr hd hi hc => step_of_row (.startImplicit w rest i o r cmd hq hr hd hi hc hx),
    fun s rest cmd hq hr hc => step_of_row (.command rest cmd hq hr hc), fun n s a0 a1 b0 b1 rest hq => ?_⟩
  obtain ⟨c, q, hrow⟩ := exists_rows_discard hq rest
  rw [run_of_row (hrow a0 a1), run_of_row (hrow b0 b1)]
  refine run_hideAnswers_eq ?_ n
  exact hideAnswers_eq_iff.mpr ⟨rfl, by simp⟩

end Sys2Proof.Machine

namespace Sys2Proof.Machine

/-! The decodes of a reply (42_decoder.md R170, R171) are fields of its two bytes: what the masks keep, said once. -/

section
variable {b0 b1 c0 : Byte}

/-- The mask of R170 keeps the fourteen bits below the status bits: six of the first byte, the second byte whole. -/
theorem dec14_eq_append (b0 b1 : Byte) : dec14 b0 b1 = b0.extractLsb' 0 6 ++ b1 :=
  calc dec14 b0 b1
    _ = (b0 ++ b1).setWidth 14 &&& BitVec.allOnes 14 := by rw [dec14, wordOf_eq_append, BitVec.setWidth_and]; rfl
    _ = (b0 ++ b1).extractLsb' 0 14 := by rw [BitVec.and_allOnes, BitVec.setWidth_eq_extractLsb' (by decide)]
    _ = (b0 ++ b1).extractLsb' 8 6 ++ (b0 ++ b1).extractLsb' 0 8 :=
      (BitVec.extractLsb'_append_extractLsb'_eq_extractLsb' (len₁ := 8) (len₂ := 6) rfl).symm
    _ = b0.extractLsb' 0 6 ++ b1 := by
      rw [BitVec.extractLsb'_append_eq_of_le (by decide), BitVec.extractLsb'_append_eq_right]

/-- The mask of R171 keeps the low nibble. -/
theorem decDiag_eq_extractLsb' (b0 : Byte) : decDiag b0 = b0.extractLsb' 0 4 :=
  calc decDiag b0
    _ = b0.setWidth 4 &&& BitVec.allOnes 4 := by rw [decDiag, BitVec.setWidth_and]; rfl
    _ = b0.extractLsb' 0 4 := by rw [BitVec.and_allOnes, BitVec.setWidth_eq_extractLsb' (by decide)]

/-- The status bits do not reach the payload (R170). -/
theorem dec14_congr (h : b0.extractLsb' 0 6 = c0.extractLsb' 0 6) (b1 : Byte) : dec14 b0 b1 = dec14 c0 b1 := by
  rw [dec14_eq_append, dec14_eq_append, h]

/-- The status bits do not reach the diagnostic nibble (R171). -/
theorem decDiag_congr (h : b0.extractLsb' 0 6 = c0.extractLsb' 0 6) : decDiag b0 = decDiag c0 := by
  have hnibble (b : Byte) : decDiag b = (b.extractLsb' 0 6).extractLsb' 0 4 := by
    rw [decDiag_eq_extractLsb', BitVec.extractLsb'_extractLsb'_of_le (by decide)]
  rw [hnibble, hnibble, h]

/-- The payload begins with bits 5:4 of the first byte, and then has the pair of R171. -/
theorem dec14_eq_append_diag_gain (b0 b1 : Byte) :
    dec14 b0 b1 = (b0.extractLsb' 4 2 ++ decDiag b0) ++ decGain b1 := by
  have hsplit : b0.extractLsb' 4 2 ++ b0.extractLsb' 0 4 = b0.extractLsb' 0 6 :=
    BitVec.extractLsb'_append_extractLsb'_eq_extractLsb' rfl
  rw [dec14_eq_append, decDiag_eq_extractLsb', decGain, hsplit]

/-- The pair of R171 is the payload split in two where the two bits above the nibble are zero. -/
theorem append_diag_gain_eq_dec14_iff :
    (0#2 ++ decDiag b0) ++ decGain b1 = dec14 b0 b1 ↔ b0.extractLsb' 4 2 = 0#2 := by
  rw [dec14_eq_append_diag_gain, BitVec.append_left_inj, BitVec.append_left_inj, eq_comm]

/-- A payload as a response's data (R91): two zero bits above it. -/
theorem setWidth_dec14 (b0 b1 : Byte) : (dec14 b0 b1).setWidth 16 = (0#2 ++ b0.extractLsb' 0 6) ++ b1 := by
  rw [dec14_eq_append, BitVec.setWidth_eq_append (by decide), BitVec.append_assoc]

end

/-- Settles O33: the payload is six bits of the first byte and the second byte. -/
theorem payloadIsLowFourteenBits : Obligations.PayloadIsLowFourteenBits :=
  ⟨dec14_eq_append, fun _ _ b1 h => dec14_congr h b1, by decide, by decide, by decide, by decide⟩

/-- Settles O34: the nibble and the byte are fields of their byte and so of the word, and they are the payload's lower
twelve bits. -/
theorem diagGainDecodeIsByteLevel : Obligations.DiagGainDecodeIsByteLevel := by
  refine ⟨fun b0 b1 => ⟨decDiag_eq_extractLsb' b0, rfl, ?_, (lo8_wordOf b0 b1).symm, append_diag_gain_eq_dec14_iff⟩,
    by decide⟩
  rw [decDiag_eq_extractLsb', wordOf_eq_append, BitVec.extractLsb'_append_eq_of_le (by decide)]

/-! The replies that share a value (R177): the bits a decode does not read take every value. -/

section
variable {m n : Nat}

/-- The words of `m + n` bits whose low `n` bits are `p`. -/
def wordsAbove (m : Nat) (p : BitVec n) : List (BitVec (m + n)) :=
  (List.finRange (2 ^ m)).map fun x => BitVec.ofFin x ++ p

theorem length_wordsAbove (p : BitVec n) : (wordsAbove m p).length = 2 ^ m := by simp [wordsAbove]

theorem mem_wordsAbove_iff {p : BitVec n} {w : BitVec (m + n)} : w ∈ wordsAbove m p ↔ w.extractLsb' 0 n = p := by
  simp only [wordsAbove, List.mem_map, List.mem_finRange, true_and]
  constructor
  · rintro ⟨x, rfl⟩
    exact BitVec.extractLsb'_append_eq_right
  · rintro rfl
    exact ⟨(w.extractLsb' n m).toFin, BitVec.extractLsb'_append_extractLsb'⟩

theorem nodup_wordsAbove (p : BitVec n) : (wordsAbove m p).Nodup := by
  refine (List.nodup_finRange _).map fun x y h => ?_
  exact BitVec.ofFin.inj ((BitVec.append_left_inj p).mp h)

/-- The replies `F` with second byte `k` and the low `n` bits of the first byte `p`. -/
def repliesAbove (m : Nat) (p : BitVec n) (k : Byte) : List (BitVec (m + n) × Byte) :=
  (wordsAbove m p).map fun w => (w, k)

theorem length_repliesAbove (p : BitVec n) (k : Byte) : (repliesAbove m p k).length = 2 ^ m := by
  rw [repliesAbove, List.length_map, length_wordsAbove]

theorem nodup_repliesAbove (p : BitVec n) (k : Byte) : (repliesAbove m p k).Nodup :=
  (nodup_wordsAbove p).map fun _ _ h => congrArg Prod.fst h

theorem mem_repliesAbove_iff {p : BitVec n} {k b1 : Byte} {b0 : BitVec (m + n)} :
    (b0, b1) ∈ repliesAbove m p k ↔ b0.extractLsb' 0 n = p ∧ b1 = k := by
  simp [repliesAbove, mem_wordsAbove_iff, eq_comm]

end

theorem dec14_eq_iff {b0 b1 : Byte} {d : BitVec 14} :
    dec14 b0 b1 = d ↔ b0.extractLsb' 0 6 = d.extractLsb' 8 6 ∧ b1 = d.extractLsb' 0 8 := by
  rw [dec14_eq_append]
  constructor
  · rintro rfl
    exact ⟨BitVec.extractLsb'_append_eq_left.symm, BitVec.extractLsb'_append_eq_right.symm⟩
  · rintro ⟨h0, rfl⟩
    rw [h0]
    exact BitVec.extractLsb'_append_extractLsb'

/-- Settles O35: the replies of a payload differ in the two bits above it, those of a nibble and a byte in the four
above the nibble. -/
theorem decodersAreOnto : Obligations.DecodersAreOnto := by
  refine ⟨fun b0 b1 => ?_, fun d => ?_, fun g k => ?_⟩
  · exact ⟨Nat.le_of_lt_succ (dec14 b0 b1).isLt, Nat.le_of_lt_succ (decDiag b0).isLt, Nat.le_of_lt_succ (decGain b1).isLt⟩
  · exact ⟨repliesAbove 2 (d.extractLsb' 8 6) (d.extractLsb' 0 8), nodup_repliesAbove _ _, length_repliesAbove _ _,
      fun b0 b1 => dec14_eq_iff.trans mem_repliesAbove_iff.symm⟩
  · refine ⟨repliesAbove 4 g k, nodup_repliesAbove _ _, length_repliesAbove _ _, fun b0 b1 => ?_⟩
    rw [decDiag_eq_extractLsb', decGain]
    exact mem_repliesAbove_iff.symm

/-! The operations that respond a decoded reply (R172 to R175). -/

section
variable {s : State} {w : Hreq} {rest : List Hreq} {i : Instr} {o : OpCode} {r : Sel} {cmd : Word}

/-- A read whose operation has the payload as its `RES` (R172, R174, R175). -/
theorem readsAs_payload (hq : s.seq = .idle) (hr : s.requests = w :: rest) (hd : decodeHreq w = .ok i)
    (hi : ReadRequest i o r) (hc : commandWord r = some cmd) (ho : o = 2#3 ∨ o = 4#3 ∨ o = 5#3) :
    ReadsAs s rest o r cmd fun b0 b1 => (0#2 ++ b0.extractLsb' 0 6) ++ b1 := by
  refine readsAs_of_request hq hr hd hi hc fun b0 b1 => ?_
  rw [completionData_payload ho, setWidth_dec14]

theorem readRequest_readU16 (h7 : r ≠ 7#3) : ReadRequest (.readU16 r) 2#3 r := .inr (.inl ⟨rfl, rfl, h7⟩)

theorem readRequest_diagGain (x : Sel) : ReadRequest (.diagGain x) 3#3 4#3 :=
  .inr (.inr (.inl ⟨⟨x, rfl⟩, rfl, rfl⟩))

theorem readRequest_magnitude (x : Sel) : ReadRequest (.magnitude x) 4#3 5#3 :=
  .inr (.inr (.inr (.inl ⟨⟨x, rfl⟩, rfl, rfl⟩)))

theorem readRequest_angle (x : Sel) : ReadRequest (.angle x) 5#3 6#3 :=
  .inr (.inr (.inr (.inr ⟨⟨x, rfl⟩, rfl, rfl⟩)))

end

/-- Settles O25: `READ_U16` of a register is the procedure's read with the payload as its data; selector 7 is illegal. -/
theorem readU16ReturnsPayload : Obligations.ReadU16ReturnsPayload := by
  refine ⟨fun s rest r a hq hr ha => ?_, fun s rest hq hr => step_illegalRequest hq hr (by decide)⟩
  have h7 : r ≠ 7#3 := by rintro rfl; cases ha
  exact readsAs_payload hq hr (by simp [withSelector_ok, h7]) (readRequest_readU16 h7) (commandWord_of_addrOf ha)
    (.inl rfl)

/-- Settles O26: `DIAG_GAIN` is the procedure's read of selector 4 with the nibble and the byte as its data. -/
theorem diagGainReturnsNibbleAndByte : Obligations.DiagGainReturnsNibbleAndByte := by
  intro s rest x hq hr
  refine readsAs_of_request hq hr (decodeHreq_packHreq_diagGain x) (readRequest_diagGain x) commandWord_4 fun b0 b1 => ?_
  rw [← decDiag_eq_extractLsb']
  rfl

/-- Settles O27: `MAGNITUDE` is the procedure's read of selector 5 with the payload as its data. -/
theorem magnitudeReturnsPayload : Obligations.MagnitudeReturnsPayload :=
  fun _ _ x hq hr => readsAs_payload hq hr (decodeHreq_packHreq_magnitude x) (readRequest_magnitude x) commandWord_5
    (.inr (.inl rfl))

/-- Settles O28: `ANGLE` is the procedure's read of selector 6 with the payload as its data. -/
theorem angleReturnsPayload : Obligations.AngleReturnsPayload :=
  fun _ _ x hq hr => readsAs_payload hq hr (decodeHreq_packHreq_angle x) (readRequest_angle x) commandWord_6
    (.inr (.inr rfl))

/-! The status bits of Transaction B's reply (R176). The latch `rxh` is read at completion only, so another content of
the same `RES` in it gives the same run but for that latch; the record of what was answered is not read at all. -/

section
variable {s t u : State} {f : Fault} {b b0 b1 c0 : Byte}

/-- Only `EXECUTE` has data that depends on the status bits (R149, R176). -/
theorem completionData_congr {o : OpCode} (ho : o ≠ 1#3) (h : b0.extractLsb' 0 6 = c0.extractLsb' 0 6) (b1 : Byte) :
    completionData o b0 b1 = completionData o c0 b1 := by
  have hpayload (hp : o = 2#3 ∨ o = 4#3 ∨ o = 5#3) : completionData o b0 b1 = completionData o c0 b1 := by
    rw [completionData_payload hp, completionData_payload hp, dec14_congr h]
  rcases threeBits_cases o with rfl | rfl | rfl | rfl | rfl | rfl | rfl | rfl
  · rfl
  · exact absurd rfl ho
  · exact hpayload (.inl rfl)
  · exact congrArg (fun g => some ((0#4 ++ g) ++ decGain b1)) (decDiag_congr h)
  · exact hpayload (.inr (.inl rfl))
  · exact hpayload (.inr (.inr rfl))
  · rfl
  · rfl

/-- Where the latch `rxh` is due to be read, `b` in it has the same `RES` as its content. -/
def SameResult (b : Byte) (s : State) : Prop :=
  s.seq = .bDes → completionData s.op b s.rxl = completionData s.op s.rxh s.rxl

/-- Every row is taken with `b` in the latch `rxh` too, which the row leaves or writes over. -/
theorem Row.withRxh (h : Row s t) (hb : SameResult b s) :
    ∃ b', Row { s with rxh := b } { t with rxh := b' } ∧ SameResult b' t := by
  cases h with
  | wait hs => exact ⟨b, .wait hs, hb⟩
  | refuse w rest e hq hr hd => exact ⟨b, .refuse w rest e hq hr hd, nofun⟩
  | encode w rest r cmd hq hr hd hc => exact ⟨b, .encode w rest r cmd hq hr hd hc, nofun⟩
  | startExplicit w rest i o r cmd hq hr hd hi hc hx =>
    exact ⟨b, .startExplicit w rest i o r cmd hq hr hd hi hc hx, nofun⟩
  | startImplicit w rest i o r cmd hq hr hd hi hc hx =>
    exact ⟨b, .startImplicit w rest i o r cmd hq hr hd hi hc hx, nofun⟩
  | command rest cmd hq hr hc => exact ⟨b, .command rest cmd hq hr hc, nofun⟩
  | failSelect e rest hq hr => exact ⟨b, .failSelect e rest hq hr, nofun⟩
  | closeA i0 i1 rest hq hr hx => exact ⟨b, .closeA i0 i1 rest hq hr hx, nofun⟩
  | nopImplicit i0 i1 rest hq hr hx => exact ⟨b, .nopImplicit i0 i1 rest hq hr hx, nofun⟩
  | failTransfer e rest hq hr => exact ⟨b, .failTransfer e rest hq hr, nofun⟩
  | openB rest hq hr => exact ⟨b, .openB rest hq hr, nofun⟩
  | nopExplicit rest hq hr => exact ⟨b, .nopExplicit rest hq hr, nofun⟩
  | closeB i0 i1 rest hq hr hx => exact ⟨i0, .closeB i0 i1 rest hq hr hx, fun _ => rfl⟩
  | finishImplicit i0 i1 rest d hq hr hx hd => exact ⟨i0, .finishImplicit i0 i1 rest d hq hr hx hd, nofun⟩
  | finishExplicit rest d hq hr hd => exact ⟨b, .finishExplicit rest d hq hr ((hb hq).trans hd), nofun⟩

theorem Stop.withRxh (h : Stop s f) (hb : SameResult b s) : Stop { s with rxh := b } f := by
  cases h with
  | reserved hq => exact .reserved hq
  | command rest hq hr hc => exact .command rest hq hr hc
  | finishImplicit i0 i1 rest hq hr hx hd => exact .finishImplicit i0 i1 rest hq hr hx hd
  | finishExplicit rest hq hr hd => exact .finishExplicit rest hq hr ((hb hq).trans hd)

/-- Another content of the latch `rxh` with the same `RES` gives the same run, but for that latch. -/
theorem run_withRxh (hb : SameResult b s) (n : Nat) :
    mapNext State.hideReply (run n { s with rxh := b }) = mapNext State.hideReply (run n s) := by
  induction n generalizing s b with
  | zero => rfl
  | succ n ih =>
    rcases exists_row_or_stop s with ⟨t, ht⟩ | ⟨f, hf⟩
    · obtain ⟨b', ht', hb'⟩ := ht.withRxh hb
      rw [run_of_row ht, run_of_row ht', ih hb']
    · rw [run_succ_of_fault (step_of_stop hf), run_succ_of_fault (step_of_stop (hf.withRxh hb))]

theorem hideReply_eq_of_calls
    (hdrop : ({ s with rxh := 0#8 } : State).dropHistory = ({ t with rxh := 0#8 } : State).dropHistory)
    (hcalls : s.history.map Entry.call = t.history.map Entry.call) : s.hideReply = t.hideReply :=
  hideAnswers_eq_iff (s := { s with rxh := 0#8 }) (t := { t with rxh := 0#8 }) |>.mpr ⟨hdrop, hcalls⟩

/-- What agrees but for the recorded answers agrees but for these and the latch `rxh`. -/
theorem mapNext_hideReply_eq {x y : StepResult} (h : mapNext State.hideAnswers x = mapNext State.hideAnswers y) :
    mapNext State.hideReply x = mapNext State.hideReply y := by
  rcases mapNext_eq_cases h with ⟨s, t, rfl, rfl, hst⟩ | ⟨r, rfl, rfl⟩ | ⟨r, rfl, rfl⟩
  · exact congrArg (fun u : State => Host.Outcome.next { u with rxh := 0#8 }) hst
  · rfl
  · rfl

/-- Runs from two states that differ in the recorded answers and in the latch `rxh` only, with the same `RES`, differ
there only. -/
theorem run_hideReply_eq (h : s.hideReply = t.hideReply) (hb : SameResult s.rxh t) (n : Nat) :
    mapNext State.hideReply (run n s) = mapNext State.hideReply (run n t) := by
  have hlatch : s.hideAnswers = ({ t with rxh := s.rxh } : State).hideAnswers :=
    congrArg (fun u : State => { u with rxh := s.rxh }) h
  exact (mapNext_hideReply_eq (run_hideAnswers_eq hlatch n)).trans (run_withRxh hb n)

/-- Rows T11a and T11b, or the stop in the place of T11b: two replies with the same `RES` are taken alike, but for the
recorded answers and the latch `rxh`. -/
theorem run_reply_eq (hq : s.seq = .bXfer) (hdata : completionData s.op b0 b1 = completionData s.op c0 b1)
    (rest : List TransferAnswer) (n : Nat) :
    mapNext State.hideReply (run (n + 1) { s with transferAnswers := .ok b0 b1 :: rest }) =
      mapNext State.hideReply (run (n + 1) { s with transferAnswers := .ok c0 b1 :: rest }) := by
  rcases Bool.eq_false_or_eq_true s.csExplicit with hx | hx
  · have hrow (i0 : Byte) : Row { s with transferAnswers := .ok i0 b1 :: rest }
        (((s.takeTransfer (.ok i0 b1) rest).latchReply i0 b1).issue .csHigh .bDes) :=
      .closeB (s := { s with transferAnswers := .ok i0 b1 :: rest }) i0 b1 rest hq rfl hx
    rw [run_of_row (hrow b0), run_of_row (hrow c0)]
    refine run_hideReply_eq ?_ ?_ n
    · exact hideReply_eq_of_calls rfl (by simp)
    · exact fun _ => hdata
  · cases hd : completionData s.op c0 b1 with
    | some d =>
      have hrow {i0 : Byte} (hi : completionData s.op i0 b1 = some d) :
          Row { s with transferAnswers := .ok i0 b1 :: rest }
            (((s.takeTransfer (.ok i0 b1) rest).latchReply i0 b1).respond (.ok d)) :=
        .finishImplicit (s := { s with transferAnswers := .ok i0 b1 :: rest }) i0 b1 rest d hq rfl hx hi
      rw [run_of_row (hrow (hdata.trans hd)), run_of_row (hrow hd)]
      refine run_hideReply_eq ?_ ?_ n
      · exact hideReply_eq_of_calls rfl (by simp)
      · exact nofun
    | none =>
      have hstop {i0 : Byte} (hi : completionData s.op i0 b1 = none) :
          Stop { s with transferAnswers := .ok i0 b1 :: rest } .noCompletion :=
        .finishImplicit (s := { s with transferAnswers := .ok i0 b1 :: rest }) i0 b1 rest hq rfl hx hi
      rw [run_succ_of_fault (step_of_stop (hstop (hdata.trans hd))), run_succ_of_fault (step_of_stop (hstop hd))]

end

/-- Settles O36: outside `EXECUTE` the two replies have the same `RES`, and nothing else is read of them. -/
theorem statusBitsAreNeverRead : Obligations.StatusBitsAreNeverRead :=
  ⟨fun n _ _ _ b1 rest hq ho h => run_reply_eq hq (completionData_congr ho h b1) rest n,
    fun b0 b1 => congrArg some (wordOf_eq_append b0 b1)⟩

end Sys2Proof.Machine

namespace Sys2Proof.Machine

/-! The exceptions (60_exceptions.md): the abort and the select line after it, the variant without a select call, and the
values that pass through. -/

/-- A word put on the wire runs as the instruction it decodes to (log entry 8). -/
theorem runWireWord_of_decodes {w : Word} {i : Instr} (hd : decodeWire w = .ok i) (s : State) :
    runWireWord (some w) s = exec i s := by
  simp only [runWireWord, hd]

theorem decodeWire_nopWord : decodeWire nopWord = .ok .nop := rfl

/-- Settles O8: each of the three rows runs its word once the answer is recorded, and the no-op's word decodes to it. -/
theorem stepRunsDecodedWireWord : Obligations.StepRunsDecodedWireWord := by
  refine ⟨fun s rest w i hq hr hw hd => ?_, fun s rest hq hr => ?_, fun s i0 i1 rest hq hx hr => ?_⟩
  · rw [step_aSel hq hr, rowASel, State.takeSelect_rsel, hw]
    exact runWireWord_of_decodes hd _
  · rw [step_bSel hq hr, rowBSel]
    exact runWireWord_of_decodes decodeWire_nopWord _
  · rw [step_aXfer hq hr, rowAXfer, if_neg (by simp [hx])]
    exact runWireWord_of_decodes decodeWire_nopWord _

/-! The history where a call is awaited: its head is that call, unanswered, and an answer is recorded there. -/

section
variable {s : State}

theorem EngineInv.history_csLow (hs : EngineInv s) (hq : s.seq = .aSel ∨ s.seq = .bSel) :
    ∃ h, s.history = .csLow none :: h :=
  hs.history_of_outstanding (c := .csLow) (by rcases hq with hq | hq <;> simp [State.outstanding, hq])

theorem EngineInv.history_csHigh (hs : EngineInv s) (hq : s.seq = .aDes ∨ s.seq = .bDes) :
    ∃ h, s.history = .csHigh none :: h :=
  hs.history_of_outstanding (c := .csHigh) (by rcases hq with hq | hq <;> simp [State.outstanding, hq])

theorem EngineInv.history_transfer (hs : EngineInv s) (hq : s.seq = .aXfer ∨ s.seq = .bXfer) :
    ∃ o0 o1 h, s.history = .transfer o0 o1 none :: h := by
  obtain ⟨w, hw⟩ : ∃ w, s.outstanding = some (exchangeOf w) := by
    rcases hq with hq | hq
    · obtain ⟨cmd, hcmd⟩ := exists_commandWord (ne_seven_of_readLatches (hs.reading (by simp [hq])))
      exact ⟨cmd, by simp [State.outstanding, hq, hcmd]⟩
    · exact ⟨nopWord, by simp [State.outstanding, hq]⟩
  obtain ⟨h, hh⟩ := hs.history_of_outstanding hw
  exact ⟨hi8 w, lo8 w, h, hh⟩

/-- The line's level is unknown once the outstanding select call is answered `Err` (R30). -/
theorem EngineInv.selectLevel_err (hs : EngineInv s)
    (hq : s.seq = .aSel ∨ s.seq = .aDes ∨ s.seq = .bSel ∨ s.seq = .bDes) (e : ChipSelectError) :
    selectLevel (answerSelect (.err e) s.history) = .unknown := by
  have hhead : (∃ h, s.history = .csLow none :: h) ∨ ∃ h, s.history = .csHigh none :: h := by
    rcases hq with hq | hq | hq | hq
    · exact .inl (hs.history_csLow (.inl hq))
    · exact .inr (hs.history_csHigh (.inl hq))
    · exact .inl (hs.history_csLow (.inr hq))
    · exact .inr (hs.history_csHigh (.inr hq))
  rcases hhead with ⟨h, hh⟩ | ⟨h, hh⟩ <;> rw [hh] <;> rfl

/-- The line is asserted throughout an exchange of a bracketed read (R143). -/
theorem LineInv.low_of_exchange (hl : LineInv s) (hx : s.csExplicit = true) (hq : s.seq = .aXfer ∨ s.seq = .bXfer) :
    selectLevel s.history = .low := by
  rcases hq with hq | hq
  · exact hl.asserted hx (.inl hq)
  · exact hl.asserted hx (.inr (.inr (.inl hq)))

end

/-- Settles O5: the exchange's answer is not one to a select call, and the select call's own answer sets the level. -/
theorem selectLineAfterOperation : Obligations.SelectLineAfterOperation := by
  refine ⟨fun s e rest hl hx hq hr => ?_, fun s e rest hs hq hr => ?_, fun s rest hs hq hr => ?_⟩
  · exact ⟨_, step_of_row (.failTransfer e rest hq hr), rfl, by simpa using hl.low_of_exchange hx hq⟩
  · exact ⟨_, step_of_row (.failSelect e rest hq hr), rfl, hs.selectLevel_err hq e⟩
  · obtain ⟨d, hd⟩ := exists_completionData (hs.reading (by simp [hq])) s.rxh s.rxl
    exact ⟨_, step_of_row (.finishExplicit rest d hq hr hd), rfl,
      hs.selectLevel_csHigh (by simp [State.outstanding, hq])⟩

section
variable {s : State} {older : List Entry}

/-- Rows T6 and T12: a failed exchange (R208). -/
theorem step_failTransfer {e : TransportError} {rest : List TransferAnswer} {o0 o1 : Byte}
    (hq : s.seq = .aXfer ∨ s.seq = .bXfer) (hr : s.transferAnswers = .err e :: rest)
    (hh : s.history = .transfer o0 o1 none :: older) :
    step s = .next { s with seq := .idle, transferAnswers := rest,
                            history := .transfer o0 o1 (some (.err e)) :: older,
                            responses := .err (.transport e) :: s.responses } := by
  have hanswer : answerTransfer (.err e) s.history = .transfer o0 o1 (some (.err e)) :: older := by rw [hh]; rfl
  rw [step_of_row (.failTransfer e rest hq hr), ← hanswer]
  rfl

/-- Rows T4, T8, T10 and T14: a failed select call (R208). -/
theorem step_failSelect {e : ChipSelectError} {rest : List SelectAnswer} {mk : Option SelectAnswer → Entry}
    (hmk : mk = .csLow ∨ mk = .csHigh) (hq : s.seq = .aSel ∨ s.seq = .aDes ∨ s.seq = .bSel ∨ s.seq = .bDes)
    (hr : s.selectAnswers = .err e :: rest) (hh : s.history = mk none :: older) :
    step s = .next { s with seq := .idle, selectAnswers := rest, history := mk (some (.err e)) :: older,
                            responses := .err (.chipSelect e) :: s.responses } := by
  have hanswer : answerSelect (.err e) s.history = mk (some (.err e)) :: older := by
    rcases hmk with rfl | rfl <;> rw [hh] <;> rfl
  rw [step_of_row (.failSelect e rest hq hr), ← hanswer]
  rfl

end

/-- Settles O21: the abort's rows record the failure in the outstanding call, which is the history's head. -/
theorem abortOnFirstFailure : Obligations.AbortOnFirstFailure := by
  refine ⟨fun s e rest hs hq hr => ?_, fun s e rest hs hq hr => ?_, fun s e rest hs hq hr => ?_⟩
  · obtain ⟨o0, o1, older, hh⟩ := hs.history_transfer hq
    exact ⟨o0, o1, older, hh, step_failTransfer hq hr hh, by rw [hh]; rfl, fun hl hx => hl.low_of_exchange hx hq⟩
  · obtain ⟨older, hh⟩ := hs.history_csLow hq
    exact ⟨older, hh, step_failSelect (.inl rfl) (hq.imp_right fun h => .inr (.inl h)) hr hh⟩
  · obtain ⟨older, hh⟩ := hs.history_csHigh hq
    exact ⟨older, hh, step_failSelect (.inr rfl) (.inr (hq.imp_right .inr)) hr hh⟩

/-! Chip-select in the transport (R202, R144): every named operation that a row of this variant uses keeps `NoSelect`. -/

section
variable {s t : State}

theorem NoSelect.takeRequest (h : NoSelect s) (rest : List Hreq) : NoSelect (s.takeRequest rest) := { h with }

theorem NoSelect.latch (h : NoSelect s) (o : OpCode) (r : Sel) : NoSelect (s.latch o r) := { h with }

theorem NoSelect.latchReply (h : NoSelect s) (i0 i1 : Byte) : NoSelect (s.latchReply i0 i1) := { h with }

theorem NoSelect.issue_exchangeOf (h : NoSelect s) (w : Word) (q : SeqState) : NoSelect (s.issue (exchangeOf w) q) where
  calls := List.forall_mem_cons.mpr ⟨⟨hi8 w, lo8 w, none, rfl⟩, h.calls⟩
  responses := h.responses

theorem NoSelect.respond (h : NoSelect s) {x : Response} (hx : ∀ e, x ≠ .err (.chipSelect e)) :
    NoSelect (s.respond x) where
  calls := h.calls
  responses := List.forall_mem_cons.mpr ⟨hx, h.responses⟩

/-- Recording an exchange's answer makes no entry a select call. -/
theorem NoSelect.takeTransfer (h : NoSelect s) (a : TransferAnswer) (rest : List TransferAnswer) :
    NoSelect (s.takeTransfer a rest) where
  calls := by
    have hcalls := h.calls
    rw [State.takeTransfer_history]
    unfold answerTransfer
    split
    · next o0 o1 older hh =>
      rw [hh] at hcalls
      exact List.forall_mem_cons.mpr ⟨⟨o0, o1, some a, rfl⟩, (List.forall_mem_cons.mp hcalls).2⟩
    · exact hcalls
  responses := h.responses

/-- The implicit variant: chip-select is the transport's, and the engine is in a state of this variant (R24) and has made
no select call. -/
structure ImplicitInv (s : State) : Prop where
  implicit : s.csExplicit = false
  seq : s.seq = .idle ∨ s.seq = .aXfer ∨ s.seq = .bXfer
  noSelect : NoSelect s

/-- Every row of the implicit variant makes an exchange or responds something other than a `ChipSelect` failure. -/
theorem Row.implicitInv (hrow : Row s t) (h : ImplicitInv s) : ImplicitInv t := by
  obtain ⟨hx, hseq, hn⟩ := h
  cases hrow with
  | wait => exact ⟨hx, hseq, hn⟩
  | refuse w rest => exact ⟨hx, .inl rfl, (hn.takeRequest rest).respond nofun⟩
  | encode w rest r => exact ⟨hx, .inl rfl, ((hn.takeRequest rest).latch 0#3 r).respond nofun⟩
  | startImplicit w rest i o r cmd =>
    exact ⟨hx, .inr (.inl rfl), ((hn.takeRequest rest).latch o r).issue_exchangeOf cmd .aXfer⟩
  | nopImplicit i0 i1 rest =>
    exact ⟨hx, .inr (.inr rfl), (hn.takeTransfer _ rest).issue_exchangeOf nopWord .bXfer⟩
  | failTransfer e rest => exact ⟨hx, .inl rfl, (hn.takeTransfer _ rest).respond nofun⟩
  | finishImplicit i0 i1 rest => exact ⟨hx, .inl rfl, ((hn.takeTransfer _ rest).latchReply i0 i1).respond nofun⟩
  | startExplicit w rest i o r cmd hq hr hd hi hc hx' => simp [hx] at hx'
  | closeA i0 i1 rest hq hr hx' => simp [hx] at hx'
  | closeB i0 i1 rest hq hr hx' => simp [hx] at hx'
  | command rest cmd hq => simp [hq] at hseq
  | openB rest hq => simp [hq] at hseq
  | nopExplicit rest hq => simp [hq] at hseq
  | finishExplicit rest d hq => simp [hq] at hseq
  | failSelect e rest hq => rcases hq with hq | hq | hq | hq <;> simp [hq] at hseq

end

/-- Settles O43: the rows of the implicit variant keep to it, so a run does. -/
theorem implicitVariantMakesNoSelectCall : Obligations.ImplicitVariantMakesNoSelectCall := by
  intro n s t hx hseq hn hrun
  have ht : ImplicitInv t := run_keeps (fun _ _ hrow h => hrow.implicitInv h) hrun ⟨hx, hseq, hn⟩
  exact ⟨ht.noSelect, ht.seq⟩

/-! Renaming the collaborators' errors (R200 to R202): it commutes with each named operation, so a row of the renamed
state is the renamed row, and a stop of the one is a stop of the other. -/

section
variable {s t : State} (f : Renaming)

@[simp] theorem Entry.rename_entry (c : Call) : c.entry.rename f = c.entry := by
  cases c <;> rfl

/-- Renaming an entry leaves it answered or unanswered, so an answer is recorded in the same entry (R66). -/
theorem map_rename_answerSelect (a : SelectAnswer) (h : List Entry) :
    (answerSelect a h).map (Entry.rename f) = answerSelect (a.rename f) (h.map (Entry.rename f)) :=
  match h with
  | [] | .csLow none :: _ | .csHigh none :: _ | .csLow (some _) :: _ | .csHigh (some _) :: _ | .transfer _ _ _ :: _ =>
    rfl

theorem map_rename_answerTransfer (a : TransferAnswer) (h : List Entry) :
    (answerTransfer a h).map (Entry.rename f) = answerTransfer (a.rename f) (h.map (Entry.rename f)) :=
  match h with
  | [] | .csLow _ :: _ | .csHigh _ :: _ | .transfer _ _ none :: _ | .transfer _ _ (some _) :: _ => rfl

@[simp] theorem State.rename_issue (c : Call) (q : SeqState) : (s.issue c q).rename f = (s.rename f).issue c q := by
  simp [State.rename, State.issue]

@[simp] theorem State.rename_respond (x : Response) : (s.respond x).rename f = (s.rename f).respond (x.rename f) := rfl

@[simp] theorem State.rename_abort (c : Cause) : (s.abort c).rename f = (s.rename f).abort (c.rename f) := rfl

@[simp] theorem State.rename_latch (o : OpCode) (r : Sel) : (s.latch o r).rename f = (s.rename f).latch o r := rfl

@[simp] theorem State.rename_latchReply (i0 i1 : Byte) :
    (s.latchReply i0 i1).rename f = (s.rename f).latchReply i0 i1 := rfl

@[simp] theorem State.rename_takeRequest (rest : List Hreq) :
    (s.takeRequest rest).rename f = (s.rename f).takeRequest rest := rfl

@[simp] theorem State.rename_takeSelect (a : SelectAnswer) (rest : List SelectAnswer) :
    (s.takeSelect a rest).rename f = (s.rename f).takeSelect (a.rename f) (rest.map (SelectAnswer.rename f)) := by
  simp [State.rename, State.takeSelect, map_rename_answerSelect]

@[simp] theorem State.rename_takeTransfer (a : TransferAnswer) (rest : List TransferAnswer) :
    (s.takeTransfer a rest).rename f = (s.rename f).takeTransfer (a.rename f) (rest.map (TransferAnswer.rename f)) := by
  simp [State.rename, State.takeTransfer, map_rename_answerTransfer]

theorem State.rename_selectAnswers {a : SelectAnswer} {rest : List SelectAnswer} (h : s.selectAnswers = a :: rest) :
    (s.rename f).selectAnswers = a.rename f :: rest.map (SelectAnswer.rename f) :=
  congrArg (List.map (SelectAnswer.rename f)) h

theorem State.rename_transferAnswers {a : TransferAnswer} {rest : List TransferAnswer}
    (h : s.transferAnswers = a :: rest) :
    (s.rename f).transferAnswers = a.rename f :: rest.map (TransferAnswer.rename f) :=
  congrArg (List.map (TransferAnswer.rename f)) h

@[simp] theorem State.starved_rename : (s.rename f).starved = s.starved := by
  simp [State.starved, State.rename]

/-- A row of the renamed state is the renamed row: which row it is depends on no error value. -/
theorem Row.rename (h : Row s t) : Row (s.rename f) (t.rename f) := by
  cases h with
  | wait hs => exact .wait ((State.starved_rename f).trans hs)
  | refuse w rest e hq hr hd => exact .refuse w rest e hq hr hd
  | encode w rest r cmd hq hr hd hc => exact .encode w rest r cmd hq hr hd hc
  | startExplicit w rest i o r cmd hq hr hd hi hc hx => exact .startExplicit w rest i o r cmd hq hr hd hi hc hx
  | startImplicit w rest i o r cmd hq hr hd hi hc hx => exact .startImplicit w rest i o r cmd hq hr hd hi hc hx
  | command rest cmd hq hr hc =>
    rw [State.rename_issue, State.rename_takeSelect]
    exact .command _ cmd hq (State.rename_selectAnswers f hr) hc
  | failSelect e rest hq hr =>
    rw [State.rename_abort, State.rename_takeSelect]
    exact .failSelect _ _ hq (State.rename_selectAnswers f hr)
  | closeA i0 i1 rest hq hr hx =>
    rw [State.rename_issue, State.rename_takeTransfer]
    exact .closeA i0 i1 _ hq (State.rename_transferAnswers f hr) hx
  | nopImplicit i0 i1 rest hq hr hx =>
    rw [State.rename_issue, State.rename_takeTransfer]
    exact .nopImplicit i0 i1 _ hq (State.rename_transferAnswers f hr) hx
  | failTransfer e rest hq hr =>
    rw [State.rename_abort, State.rename_takeTransfer]
    exact .failTransfer _ _ hq (State.rename_transferAnswers f hr)
  | openB rest hq hr =>
    rw [State.rename_issue, State.rename_takeSelect]
    exact .openB _ hq (State.rename_selectAnswers f hr)
  | nopExplicit rest hq hr =>
    rw [State.rename_issue, State.rename_takeSelect]
    exact .nopExplicit _ hq (State.rename_selectAnswers f hr)
  | closeB i0 i1 rest hq hr hx =>
    rw [State.rename_issue, State.rename_latchReply, State.rename_takeTransfer]
    exact .closeB i0 i1 _ hq (State.rename_transferAnswers f hr) hx
  | finishImplicit i0 i1 rest d hq hr hx hd =>
    rw [State.rename_respond, State.rename_latchReply, State.rename_takeTransfer]
    exact .finishImplicit i0 i1 _ d hq (State.rename_transferAnswers f hr) hx hd
  | finishExplicit rest d hq hr hd =>
    rw [State.rename_respond, State.rename_takeSelect]
    exact .finishExplicit _ d hq (State.rename_selectAnswers f hr) hd

theorem Stop.rename {r : Fault} (h : Stop s r) : Stop (s.rename f) r := by
  cases h with
  | reserved hq => exact .reserved hq
  | command rest hq hr hc => exact .command _ hq (State.rename_selectAnswers f hr) hc
  | finishImplicit i0 i1 rest hq hr hx hd =>
    exact .finishImplicit i0 i1 _ hq (State.rename_transferAnswers f hr) hx hd
  | finishExplicit rest hq hr hd => exact .finishExplicit _ hq (State.rename_selectAnswers f hr) hd

end

/-- Settles O44: each row and each stop is taken under the renaming too, and so, step by step, is each run. -/
theorem errorValuesPassUnchanged : Obligations.ErrorValuesPassUnchanged := by
  intro f n
  induction n with
  | zero => exact fun _ => rfl
  | succ n ih =>
    intro s
    rcases exists_row_or_stop s with ⟨t, ht⟩ | ⟨r, hr⟩
    · rw [run_of_row ht, run_of_row (ht.rename f), ih t]
    · rw [run_succ_of_fault (step_of_stop hr), run_succ_of_fault (step_of_stop (hr.rename f)), mapNext]

end Sys2Proof.Machine

namespace Sys2Proof.Machine

/-! Construction (70_reset_and_hazards.md R230). -/

/-- Settles O1: construction writes each of the five fields as stated, and the reset state is built with the strap of
Config. -/
theorem constructionIsIdleAndSilent : Obligations.ConstructionIsIdleAndSilent := by
  refine ⟨fun cs => ?_, Config.csExplicit, rfl⟩
  exact ⟨rfl, rfl, rfl, rfl, rfl⟩

end Sys2Proof.Machine
